-- ==== Sys2Proof/Word.lean ====
section
/-!
DEFINITION. The word types of the li8z CHIP-8 core (spec 00_scope.md R5, R8).
-/

namespace Sys2Proof

/-- An 8-bit value: a V register, a timer, a memory byte, an immediate NN (R5, R58). -/
abbrev Byte := BitVec 8

/-- A 16-bit value: an opcode, PC, I, a stack entry (R5, R57). -/
abbrev Word := BitVec 16

/-- The 12-bit address immediate NNN (R58). -/
abbrev Addr12 := BitVec 12

/-- A general register index X or Y, 0..15 (R10, R15). -/
abbrev Reg := Fin 16

end Sys2Proof
end

