-- ==== Sys2Proof/Syntax.lean ====
section
/-!
DEFINITION. The instructions: one constructor per row of spec/opcode_table.json, in the table's order
(spec 30_encoding.md R62).
-/

namespace Sys2Proof

/-- The 34 instructions of R62. The operands are the fields of R58: registers X and Y, the byte immediate NN, the
address immediate NNN, and the sprite height N, a count (R60), whose bound is checked in WellFormed.lean (DESIGN
CHOICE, safe, log 12). -/
inductive Instr where
  /-- `0000`, R70. -/
  | nop
  /-- `00E0`, R98. -/
  | cls
  /-- `00EE`, R71. -/
  | ret
  /-- `1NNN`, R72. -/
  | jp (nnn : Addr12)
  /-- `2NNN`, R73. -/
  | call (nnn : Addr12)
  /-- `3XNN`, R74. -/
  | seImm (x : Reg) (nn : Byte)
  /-- `4XNN`, R75. -/
  | sneImm (x : Reg) (nn : Byte)
  /-- `5XY0`, R76. -/
  | seReg (x y : Reg)
  /-- `6XNN`, R80. -/
  | ldImm (x : Reg) (nn : Byte)
  /-- `7XNN`, R81. -/
  | addImm (x : Reg) (nn : Byte)
  /-- `8XY0`, R82. -/
  | ldReg (x y : Reg)
  /-- `8XY1`, R83. -/
  | orReg (x y : Reg)
  /-- `8XY2`, R84. -/
  | andReg (x y : Reg)
  /-- `8XY3`, R85. -/
  | xorReg (x y : Reg)
  /-- `8XY4`, R86. -/
  | addReg (x y : Reg)
  /-- `8XY5`, R87. -/
  | subReg (x y : Reg)
  /-- `8XY6`, R88: Y is encoded and not read. -/
  | shr (x y : Reg)
  /-- `8XY7`, R89. -/
  | subnReg (x y : Reg)
  /-- `8XYE`, R90: Y is encoded and not read. -/
  | shl (x y : Reg)
  /-- `9XY0`, R77. -/
  | sneReg (x y : Reg)
  /-- `ANNN`, R92. -/
  | ldI (nnn : Addr12)
  /-- `BNNN`, R78. -/
  | jpV0 (nnn : Addr12)
  /-- `CXNN`, R91. -/
  | rnd (x : Reg) (nn : Byte)
  /-- `DXYN`, R100. -/
  | drw (x y : Reg) (n : Nat)
  /-- `EX9E`, R102. -/
  | skp (x : Reg)
  /-- `EXA1`, R103. -/
  | sknp (x : Reg)
  /-- `FX07`, R104. -/
  | ldVxDt (x : Reg)
  /-- `FX0A`, R105. -/
  | ldVxK (x : Reg)
  /-- `FX15`, R106. -/
  | ldStVx (x : Reg)
  /-- `FX1E`, R93. -/
  | addI (x : Reg)
  /-- `FX29`, R94. -/
  | ldF (x : Reg)
  /-- `FX33`, R95. -/
  | ldB (x : Reg)
  /-- `FX55`, R96. -/
  | storeRegs (x : Reg)
  /-- `FX65`, R97. -/
  | loadRegs (x : Reg)
  deriving DecidableEq, Repr

end Sys2Proof
end

