-- ==== Sys2Proof/Decode.lean ====
section
/-!
DEFINITION. Decoding and encoding (spec 30_encoding.md): the nibbles of an opcode (R58), the decoder (R61, R62),
the byte order (20_memory.md R40), the encoder (R68) and the table of patterns (opcode_table.json).
-/

namespace Sys2Proof

/-- `v[hi:lo]` of R7, as a natural number. -/
def bits (op : Word) (hi lo : Nat) : Nat := op.toNat / 2 ^ lo % 2 ^ (hi + 1 - lo)

/-- `digit1 = op[15:12]` (R58). -/
def digit1 (op : Word) : Nat := bits op 15 12
/-- `digit2 = op[11:8]` (R58). -/
def digit2 (op : Word) : Nat := bits op 11 8
/-- `digit3 = op[7:4]` (R58). -/
def digit3 (op : Word) : Nat := bits op 7 4
/-- `digit4 = op[3:0]` (R58). -/
def digit4 (op : Word) : Nat := bits op 3 0

/-- The operand X, `digit2` (R58). -/
def fieldX (op : Word) : Reg := Fin.ofNat 16 (digit2 op)
/-- The operand Y, `digit3` (R58). -/
def fieldY (op : Word) : Reg := Fin.ofNat 16 (digit3 op)
/-- The operand NN, `op[7:0]` (R58). -/
def fieldNN (op : Word) : Byte := BitVec.ofNat 8 (bits op 7 0)
/-- The operand NNN, `op[11:0]` (R58). -/
def fieldNNN (op : Word) : Addr12 := BitVec.ofNat 12 (bits op 11 0)

/-- The patterns with digit1 = 0, each one single word (R62, R63). -/
def decodeFixed (op : Word) : Option Instr :=
  if op = 0x0000#16 then some .nop
  else if op = 0x00E0#16 then some .cls
  else if op = 0x00EE#16 then some .ret
  else none

/-- The patterns with digit1 = 8, by digit4 (R62). -/
def decodeAlu (d4 : Nat) (x y : Reg) : Option Instr :=
  match d4 with
  | 0x0 => some (.ldReg x y)
  | 0x1 => some (.orReg x y)
  | 0x2 => some (.andReg x y)
  | 0x3 => some (.xorReg x y)
  | 0x4 => some (.addReg x y)
  | 0x5 => some (.subReg x y)
  | 0x6 => some (.shr x y)
  | 0x7 => some (.subnReg x y)
  | 0xE => some (.shl x y)
  | _ => none

/-- The patterns with digit1 = E (R62). -/
def decodeKey (nn : Byte) (x : Reg) : Option Instr :=
  if nn = 0x9E#8 then some (.skp x)
  else if nn = 0xA1#8 then some (.sknp x)
  else none

/-- The patterns with digit1 = F (R62). -/
def decodeMisc (nn : Byte) (x : Reg) : Option Instr :=
  if nn = 0x07#8 then some (.ldVxDt x)
  else if nn = 0x0A#8 then some (.ldVxK x)
  else if nn = 0x15#8 then some (.ldStVx x)
  else if nn = 0x1E#8 then some (.addI x)
  else if nn = 0x29#8 then some (.ldF x)
  else if nn = 0x33#8 then some (.ldB x)
  else if nn = 0x55#8 then some (.storeRegs x)
  else if nn = 0x65#8 then some (.loadRegs x)
  else none

/-- The decoder (R61, R62): the instruction whose pattern the opcode matches; `none` for an unrecognised opcode
(R63, R64, R65), which the step runs as a no-op. -/
def decodeWord (op : Word) : Option Instr :=
  match digit1 op with
  | 0x0 => decodeFixed op
  | 0x1 => some (.jp (fieldNNN op))
  | 0x2 => some (.call (fieldNNN op))
  | 0x3 => some (.seImm (fieldX op) (fieldNN op))
  | 0x4 => some (.sneImm (fieldX op) (fieldNN op))
  | 0x5 => if digit4 op = 0 then some (.seReg (fieldX op) (fieldY op)) else none
  | 0x6 => some (.ldImm (fieldX op) (fieldNN op))
  | 0x7 => some (.addImm (fieldX op) (fieldNN op))
  | 0x8 => decodeAlu (digit4 op) (fieldX op) (fieldY op)
  | 0x9 => if digit4 op = 0 then some (.sneReg (fieldX op) (fieldY op)) else none
  | 0xA => some (.ldI (fieldNNN op))
  | 0xB => some (.jpV0 (fieldNNN op))
  | 0xC => some (.rnd (fieldX op) (fieldNN op))
  | 0xD => some (.drw (fieldX op) (fieldY op) (digit4 op))
  | 0xE => decodeKey (fieldNN op) (fieldX op)
  | 0xF => decodeMisc (fieldNN op) (fieldX op)
  | _ => none

/-- Why a sequence of bytes is not an instruction of the table. -/
inductive DecodeError where
  /-- Fewer than two bytes: a decoder always consumes 2 bytes (R57). -/
  | truncated
  /-- The opcode matches no pattern (R64, R65). -/
  | unrecognised (op : Word)
  deriving DecidableEq, Repr

/-- The opcode two bytes hold: the byte at the lower address is the high byte (20_memory.md R40, R42). -/
def wordOfBytes (hi lo : Byte) : Word := BitVec.ofNat 16 (hi.toNat * 256 + lo.toNat)

/-- The two bytes of an opcode, the one at the lower address first (R40, R68). -/
def bytesOfWord (op : Word) : List Byte := [BitVec.ofNat 8 (op.toNat / 256), BitVec.ofNat 8 op.toNat]

/-- The decoder on bytes: the instruction and the bytes after it, or the reason there is none. -/
def decodeBytes : List Byte → Except DecodeError (Instr × List Byte)
  | hi :: lo :: rest =>
    match decodeWord (wordOfBytes hi lo) with
    | some i => .ok (i, rest)
    | none => .error (.unrecognised (wordOfBytes hi lo))
  | _ => .error .truncated

/-- The instruction the decoder reads from the word `w`, numbered as spec/opcode_table.json numbers it: the low
`nbits` bits are the table's, every bit above them is 0. -/
def decodeTableWord (nbits w : Nat) : Option Instr :=
  match decodeBytes (bytesOfWord (BitVec.ofNat 16 (w % 2 ^ nbits))) with
  | .ok (i, _) => some i
  | .error _ => none

/-- Format NNN of R59: digit1, then a 12-bit address. -/
def encodeNNN (d1 : Nat) (a : Addr12) : Word := BitVec.ofNat 16 (d1 * 0x1000 + a.toNat)
/-- Format XNN of R59 (and XFF, whose low byte is a function code): digit1, X, then a byte. -/
def encodeXNN (d1 : Nat) (x : Reg) (k : Byte) : Word := BitVec.ofNat 16 (d1 * 0x1000 + x.val * 0x100 + k.toNat)
/-- Formats XY0, XYF and XYN of R59: digit1, X, Y, then the nibble `d4`. -/
def encodeXYN (d1 : Nat) (x y : Reg) (d4 : Nat) : Word :=
  BitVec.ofNat 16 (d1 * 0x1000 + x.val * 0x100 + y.val * 0x10 + d4 % 16)

/-- The encoder (R68): the pattern's fixed nibbles and the operand fields in their places. -/
def encode : Instr → Word
  | .nop => 0x0000#16
  | .cls => 0x00E0#16
  | .ret => 0x00EE#16
  | .jp nnn => encodeNNN 0x1 nnn
  | .call nnn => encodeNNN 0x2 nnn
  | .seImm x nn => encodeXNN 0x3 x nn
  | .sneImm x nn => encodeXNN 0x4 x nn
  | .seReg x y => encodeXYN 0x5 x y 0x0
  | .ldImm x nn => encodeXNN 0x6 x nn
  | .addImm x nn => encodeXNN 0x7 x nn
  | .ldReg x y => encodeXYN 0x8 x y 0x0
  | .orReg x y => encodeXYN 0x8 x y 0x1
  | .andReg x y => encodeXYN 0x8 x y 0x2
  | .xorReg x y => encodeXYN 0x8 x y 0x3
  | .addReg x y => encodeXYN 0x8 x y 0x4
  | .subReg x y => encodeXYN 0x8 x y 0x5
  | .shr x y => encodeXYN 0x8 x y 0x6
  | .subnReg x y => encodeXYN 0x8 x y 0x7
  | .shl x y => encodeXYN 0x8 x y 0xE
  | .sneReg x y => encodeXYN 0x9 x y 0x0
  | .ldI nnn => encodeNNN 0xA nnn
  | .jpV0 nnn => encodeNNN 0xB nnn
  | .rnd x nn => encodeXNN 0xC x nn
  | .drw x y n => encodeXYN 0xD x y n
  | .skp x => encodeXNN 0xE x 0x9E
  | .sknp x => encodeXNN 0xE x 0xA1
  | .ldVxDt x => encodeXNN 0xF x 0x07
  | .ldVxK x => encodeXNN 0xF x 0x0A
  | .ldStVx x => encodeXNN 0xF x 0x15
  | .addI x => encodeXNN 0xF x 0x1E
  | .ldF x => encodeXNN 0xF x 0x29
  | .ldB x => encodeXNN 0xF x 0x33
  | .storeRegs x => encodeXNN 0xF x 0x55
  | .loadRegs x => encodeXNN 0xF x 0x65

/-- The bytes of an instruction in memory, "the high byte at the lower address" (R68). -/
def encodeBytes (i : Instr) : List Byte := bytesOfWord (encode i)

/-- A row of spec/opcode_table.json as its `mask` and `match` entries. -/
structure Pattern where
  mask : Word
  value : Word
  deriving DecidableEq, Repr

/-- The opcode matches the row: its fixed nibbles equal the row's (R61). -/
def Pattern.fits (p : Pattern) (op : Word) : Bool := (op &&& p.mask) == p.value

/-- The row of spec/opcode_table.json that an instruction stands for. -/
def patternOf : Instr → Pattern
  | .nop => ⟨0xFFFF, 0x0000⟩
  | .cls => ⟨0xFFFF, 0x00E0⟩
  | .ret => ⟨0xFFFF, 0x00EE⟩
  | .jp _ => ⟨0xF000, 0x1000⟩
  | .call _ => ⟨0xF000, 0x2000⟩
  | .seImm _ _ => ⟨0xF000, 0x3000⟩
  | .sneImm _ _ => ⟨0xF000, 0x4000⟩
  | .seReg _ _ => ⟨0xF00F, 0x5000⟩
  | .ldImm _ _ => ⟨0xF000, 0x6000⟩
  | .addImm _ _ => ⟨0xF000, 0x7000⟩
  | .ldReg _ _ => ⟨0xF00F, 0x8000⟩
  | .orReg _ _ => ⟨0xF00F, 0x8001⟩
  | .andReg _ _ => ⟨0xF00F, 0x8002⟩
  | .xorReg _ _ => ⟨0xF00F, 0x8003⟩
  | .addReg _ _ => ⟨0xF00F, 0x8004⟩
  | .subReg _ _ => ⟨0xF00F, 0x8005⟩
  | .shr _ _ => ⟨0xF00F, 0x8006⟩
  | .subnReg _ _ => ⟨0xF00F, 0x8007⟩
  | .shl _ _ => ⟨0xF00F, 0x800E⟩
  | .sneReg _ _ => ⟨0xF00F, 0x9000⟩
  | .ldI _ => ⟨0xF000, 0xA000⟩
  | .jpV0 _ => ⟨0xF000, 0xB000⟩
  | .rnd _ _ => ⟨0xF000, 0xC000⟩
  | .drw _ _ _ => ⟨0xF000, 0xD000⟩
  | .skp _ => ⟨0xF0FF, 0xE09E⟩
  | .sknp _ => ⟨0xF0FF, 0xE0A1⟩
  | .ldVxDt _ => ⟨0xF0FF, 0xF007⟩
  | .ldVxK _ => ⟨0xF0FF, 0xF00A⟩
  | .ldStVx _ => ⟨0xF0FF, 0xF015⟩
  | .addI _ => ⟨0xF0FF, 0xF01E⟩
  | .ldF _ => ⟨0xF0FF, 0xF029⟩
  | .ldB _ => ⟨0xF0FF, 0xF033⟩
  | .storeRegs _ => ⟨0xF0FF, 0xF055⟩
  | .loadRegs _ => ⟨0xF0FF, 0xF065⟩

/-- The rows of spec/opcode_table.json, in its order (R62). -/
def opcodeTable : List Pattern := [
  ⟨0xFFFF, 0x0000⟩, ⟨0xFFFF, 0x00E0⟩, ⟨0xFFFF, 0x00EE⟩, ⟨0xF000, 0x1000⟩, ⟨0xF000, 0x2000⟩,
  ⟨0xF000, 0x3000⟩, ⟨0xF000, 0x4000⟩, ⟨0xF00F, 0x5000⟩, ⟨0xF000, 0x6000⟩, ⟨0xF000, 0x7000⟩] ++ [
  ⟨0xF00F, 0x8000⟩, ⟨0xF00F, 0x8001⟩, ⟨0xF00F, 0x8002⟩, ⟨0xF00F, 0x8003⟩, ⟨0xF00F, 0x8004⟩,
  ⟨0xF00F, 0x8005⟩, ⟨0xF00F, 0x8006⟩, ⟨0xF00F, 0x8007⟩, ⟨0xF00F, 0x800E⟩, ⟨0xF00F, 0x9000⟩] ++ [
  ⟨0xF000, 0xA000⟩, ⟨0xF000, 0xB000⟩, ⟨0xF000, 0xC000⟩, ⟨0xF000, 0xD000⟩, ⟨0xF0FF, 0xE09E⟩,
  ⟨0xF0FF, 0xE0A1⟩, ⟨0xF0FF, 0xF007⟩, ⟨0xF0FF, 0xF00A⟩, ⟨0xF0FF, 0xF015⟩, ⟨0xF0FF, 0xF01E⟩,
  ⟨0xF0FF, 0xF029⟩, ⟨0xF0FF, 0xF033⟩, ⟨0xF0FF, 0xF055⟩, ⟨0xF0FF, 0xF065⟩]

end Sys2Proof
end

