-- ==== Sys2Proof/Config.lean ====
section
/-!
DEFINITION. The parameters and the free value of the model: FONT_TABLE's default (spec 00_scope.md R6) and the
random draw of CXNN (spec 42_alu.md R91).
-/

namespace Sys2Proof

/-- The default of the parameter FONT_TABLE (R6), one glyph a line.
PRESUMED, unsafe (log 1): R6 marks these bytes as general knowledge. The table in force is the field `State.font`. -/
def Config.fontTable : Vector Byte 80 := #v[
  0xF0, 0x90, 0x90, 0x90, 0xF0,
  0x20, 0x60, 0x20, 0x20, 0x70,
  0xF0, 0x10, 0xF0, 0x80, 0xF0,
  0xF0, 0x10, 0xF0, 0x10, 0xF0,
  0x90, 0x90, 0xF0, 0x10, 0x10,
  0xF0, 0x80, 0xF0, 0x10, 0xF0,
  0xF0, 0x80, 0xF0, 0x90, 0xF0,
  0xF0, 0x10, 0x20, 0x40, 0x40,
  0xF0, 0x90, 0xF0, 0x90, 0xF0,
  0xF0, 0x90, 0xF0, 0x10, 0xF0,
  0xF0, 0x90, 0xF0, 0x90, 0x90,
  0xE0, 0x90, 0xE0, 0x90, 0xE0,
  0xF0, 0x80, 0x80, 0x80, 0xF0,
  0xE0, 0x90, 0x90, 0x90, 0xE0,
  0xF0, 0x80, 0xF0, 0x80, 0xF0,
  0xF0, 0x80, 0xF0, 0x80, 0x80]

/-- The free value of the model: the byte the host's random source gives as the `n`-th draw that the host has not
named itself (R91: "a free input under no law"). It has no body, so a claim holds for every sequence of draws.
DESIGN CHOICE, safe (log 2). -/
opaque Config.draw : Nat → Byte

end Sys2Proof
end

