-- ==== Sys2Proof/Machine/State.lean ====
section
/-!
DEFINITION. The state of the block (spec 10_state.md R13), the machine fault and its record (R26, R27), the host's
commands (R29) and their answers (R30), the stop reasons of the interface, and the state after reset (R31).
-/

namespace Sys2Proof.Machine

/-- The five kinds of machine fault (R27). -/
inductive FaultKind where
  /-- Code 1, raised by the fetch (20_memory.md R42). -/
  | fetchOutOfBounds
  /-- Code 2, raised by DXYN, FX33, FX55, FX65 (20_memory.md R46). -/
  | memoryOutOfBounds
  /-- Code 3, raised by 2NNN (41_control_flow.md R69). -/
  | stackOverflow
  /-- Code 4, raised by 00EE (41_control_flow.md R69). -/
  | stackUnderflow
  /-- Code 5, raised by EX9E and EXA1 (45_keys_timers.md R102, R103). -/
  | keyIndexOutOfRange
  deriving DecidableEq, Repr

/-- What `raise MachineFault(kind, addr)` carries (60_exceptions.md R109). -/
structure MachineFault where
  kind : FaultKind
  addr : Word
  deriving DecidableEq, Repr

/-- The fault record `{kind, pc, opcode, addr}` of R26. -/
structure FaultRecord where
  kind : FaultKind
  pc : Word
  opcode : Word
  addr : Word
  deriving DecidableEq, Repr

/-- A command of the host (R29). -/
inductive Command where
  /-- `RESET` (70_reset_and_hazards.md R131). -/
  | reset
  /-- `LOAD(data)` (20_memory.md R55, R56). -/
  | load (data : List Byte)
  /-- `STEP(rnd)` (60_exceptions.md R121). -/
  | step (rnd : Byte)
  /-- `TIMER_TICK` (60_exceptions.md R122). -/
  | timerTick
  /-- `KEY(index, pressed)` (60_exceptions.md R123, R124); the index is what the host sent, in range or not. -/
  | key (index : Nat) (pressed : Bool)
  deriving DecidableEq, Repr

/-- What the block returns to the host for one command (60_exceptions.md R126). -/
inductive Reply where
  /-- Nothing is returned: RESET, STEP, and KEY with an index in range. -/
  | done
  /-- The `beep` output, the result of a TIMER_TICK (60_exceptions.md R118). -/
  | beep (b : Bool)
  /-- `load_status` ok (20_memory.md R55). -/
  | loadOk
  /-- `load_status` LoadOverflow (20_memory.md R56). -/
  | loadOverflow
  /-- The KEY command is refused at the interface (60_exceptions.md R124). -/
  | keyRefused
  deriving DecidableEq, Repr

/-- The display buffer, 32 rows of 64 pixels, true = ON: `Disp[y][x]` is row y, column x (R24). -/
abbrev Screen := Vector (Vector Bool 64) 32

/-- The reasons a step could stop with a fault: there are none. Every out-of-contract condition of the spec is a
machine fault, whose entry R109 describes, so it is a next state with a fault record. -/
inductive Fault
  deriving DecidableEq, Repr

/-- The reasons a step could answer without a meaning. -/
inductive Refusal where
  /-- An instruction without a meaning yet, by its mnemonic. Only an arm of `exec` may raise it, and none does: every
  instruction has its meaning. Safe: the machine stops. -/
  | notModelled (mnemonic : String)
  deriving DecidableEq, Repr

/-- The state: the tuple of R13, then the fields the model adds to carry the spec's parameter FONT_TABLE, the host's
commands and draws, and the block's answer as plain data. -/
structure State where
  /-- `Mem[0..4095]` (R13, 20_memory.md R32): the bytes that differ from the reset contents, by rising address.
  DESIGN CHOICE, safe: the form of the list (log 7). -/
  mem : List Host.Cell
  /-- `V[0..15]` (R15). -/
  v : Vector Byte 16
  /-- `PC` (R18). -/
  pc : Word
  /-- `I` (R20). -/
  i : Word
  /-- `Stack[0..15]` (R21). -/
  stack : Vector Word 16
  /-- `SP`, 0..16 (R21). DESIGN CHOICE, safe: the bound is in the type (log 10). -/
  sp : Fin 17
  /-- `DT` (R23). -/
  dt : Byte
  /-- `ST` (R23). -/
  st : Byte
  /-- `Disp` (R24). -/
  disp : Screen
  /-- `Key[0..15]`, true = pressed (R25). -/
  key : Vector Bool 16
  /-- `Fault` (R26). -/
  fault : Option FaultRecord
  /-- The parameter FONT_TABLE (00_scope.md R6); no command changes it. Model's own field, log 1. -/
  font : Vector Byte 80
  /-- The host's commands not yet taken, the next one first; when it is empty the host issues STEPs (R29, R142).
  Model's own field. DESIGN CHOICE, safe (log 3). -/
  inbox : List Command
  /-- The `rnd` argument of the STEP being run, when the host named one (R29). Model's own field, log 2. -/
  rnd : Option Byte
  /-- How many draws CXNN has consumed (42_alu.md R91). Model's own field, log 2. -/
  draws : Nat
  /-- The answer to the latest command (R30). Model's own field. DESIGN CHOICE, safe (log 4). -/
  reply : Reply
  deriving DecidableEq, Repr

/-- The state after reset and after construction (R31, R134): every component of R13 at the spec's value; the font is
the default of 00_scope.md R6 (PRESUMED, unsafe, log 1), the model's other own fields are empty (DESIGN CHOICE, logs
2, 3, 4). No byte of memory is listed: memory holds its reset contents. -/
def State.reset : State where
  mem := []
  v := Vector.replicate 16 0
  pc := 0x200
  i := 0
  stack := Vector.replicate 16 0
  sp := 0
  dt := 0
  st := 0
  disp := Vector.replicate 32 (Vector.replicate 64 false)
  key := Vector.replicate 16 false
  fault := none
  font := Config.fontTable
  inbox := []
  rnd := none
  draws := 0
  reply := .done

end Sys2Proof.Machine
end

