-- ==== Sys2Proof/Machine/Operands.lean ====
section
/-!
DEFINITION. Reading and writing the registers an operand field names (spec 00_scope.md R10, 10_state.md R15), the
widths of values (00_scope.md R8) and one setter per state component.
-/

namespace Sys2Proof.Machine

/-- `trunc_8(v)` of R8. -/
def trunc8 (v : Nat) : Byte := BitVec.ofNat 8 v
/-- `trunc_16(v)` of R8. -/
def trunc16 (v : Nat) : Word := BitVec.ofNat 16 v
/-- `zext_16(NNN)` of R60: a 12-bit address widened with zeros. -/
def zextAddr (a : Addr12) : Word := BitVec.ofNat 16 a.toNat
/-- `zext_16(v)` of R8 for a byte. -/
def zextByte (b : Byte) : Word := BitVec.ofNat 16 b.toNat

/-- The index of VF, the 16th element of the register array (R15, R16). -/
def regF : Reg := 15

/-- `V[x]` (R15). -/
def State.getV (s : State) (x : Reg) : Byte := s.v[x]
/-- `V[x] <- b` (R15). -/
def State.setV (s : State) (x : Reg) (b : Byte) : State := { s with v := s.v.set x.val b x.isLt }
/-- `pc <- a` (R18). -/
def State.setPc (s : State) (a : Word) : State := { s with pc := a }
/-- `I <- a` (R20). -/
def State.setI (s : State) (a : Word) : State := { s with i := a }
/-- `ST <- b` (R23). -/
def State.setSt (s : State) (b : Byte) : State := { s with st := b }
/-- `DT <- b` (R23). -/
def State.setDt (s : State) (b : Byte) : State := { s with dt := b }
/-- The display replaced (R24). -/
def State.setDisp (s : State) (d : Screen) : State := { s with disp := d }
/-- `Key[k] <- p` (R25). -/
def State.setKey (s : State) (k : Fin 16) (p : Bool) : State := { s with key := s.key.set k.val p k.isLt }
/-- The whole register array replaced (R15). -/
def State.setVs (s : State) (v : Vector Byte 16) : State := { s with v := v }
/-- The memory list replaced (R32). -/
def State.setMem (s : State) (m : List Host.Cell) : State := { s with mem := m }
/-- The answer to the command being run (R30). -/
def State.setReply (s : State) (r : Reply) : State := { s with reply := r }

/-- A pixel of a display, column x, row y (R24). -/
def Screen.pixel (d : Screen) (x : Fin 64) (y : Fin 32) : Bool := d[y][x]
/-- `Disp[y][x] <- Disp[y][x] ^ 1` (R100). -/
def Screen.flip (d : Screen) (x : Fin 64) (y : Fin 32) : Screen :=
  d.set y.val (d[y].set x.val (!d[y][x]) x.isLt) y.isLt
/-- The display with every pixel OFF (R24, R98). -/
def Screen.clear : Screen := Vector.replicate 32 (Vector.replicate 64 false)

end Sys2Proof.Machine
end

