-- ==== Sys2Proof/Machine/Ops.lean ====
section
/-!
DEFINITION. The operations the instructions share: memory (spec 20_memory.md), the fetch (R42), the return stack
(41_control_flow.md R69), the random draw (42_alu.md R91), and taking a machine fault (60_exceptions.md R109).
-/

namespace Sys2Proof.Machine

/-- What a byte of memory holds after reset, and so what an unlisted address reads as: FONT_TABLE in [0x000, 0x050),
zero from 0x050 on (10_state.md R31, 20_memory.md R34, R35; log 7). -/
def Memory.initial (font : Vector Byte 80) (a : Nat) : Byte := if h : a < 80 then font[a] else 0

/-- The byte at an address: its entry, or else the reset contents. -/
def Memory.read (font : Vector Byte 80) : List Host.Cell → Nat → Byte
  | [], a => Memory.initial font a
  | (k, b) :: rest, a => if k = a then b else Memory.read font rest a

/-- Put the entry of address `a` at its place. -/
def Memory.insert (a : Nat) (b : Byte) : List Host.Cell → List Host.Cell
  | [] => [(a, b)]
  | (k, c) :: rest =>
    if a < k then (a, b) :: (k, c) :: rest
    else if k = a then (a, b) :: rest
    else (k, c) :: Memory.insert a b rest

/-- Remove every entry of address `a`. -/
def Memory.erase (a : Nat) : List Host.Cell → List Host.Cell
  | [] => []
  | (k, c) :: rest => if k = a then Memory.erase a rest else (k, c) :: Memory.erase a rest

/-- `Mem[a] <- b`, keeping the canonical form: no entry for the reset contents. -/
def Memory.write (font : Vector Byte 80) (m : List Host.Cell) (a : Nat) (b : Byte) : List Host.Cell :=
  if b = Memory.initial font a then Memory.erase a m else Memory.insert a b m

/-- The entries from address `lo` on are in canonical form: rising, inside memory, none equal to the reset contents. -/
def Memory.wfFrom (font : Vector Byte 80) : Nat → List Host.Cell → Bool
  | _, [] => true
  | lo, (k, b) :: rest =>
    decide (lo ≤ k) && decide (k < 4096) && !(b == Memory.initial font k) && Memory.wfFrom font (k + 1) rest

/-- The canonical form of memory. -/
def Memory.wf (font : Vector Byte 80) (m : List Host.Cell) : Bool := Memory.wfFrom font 0 m

/-- `Mem[a]` (R32). -/
def State.readByte (s : State) (a : Nat) : Byte := Memory.read s.font s.mem a
/-- `Mem[a] <- b` (R32). -/
def State.writeByte (s : State) (a : Nat) (b : Byte) : State := s.setMem (Memory.write s.font s.mem a b)

/-- `CheckRange(addr, n)` (R46): unbounded addresses, no check when n = 0; the first address out of range is reported. -/
def checkRange (addr n : Nat) : Except MachineFault Unit :=
  if 1 ≤ n ∧ 0xFFF < addr + n - 1 then .error ⟨.memoryOutOfBounds, trunc16 (max addr 0x1000)⟩ else .ok ()

/-- `MemRead(addr, 1)` (R44). -/
def memRead (addr : Nat) (s : State) : Except MachineFault Byte :=
  if addr ≤ 0xFFF then .ok (s.readByte addr) else .error ⟨.memoryOutOfBounds, trunc16 addr⟩

/-- `MemWrite(addr, 1, b)` (R45). -/
def memWrite (addr : Nat) (b : Byte) (s : State) : Except MachineFault State :=
  if addr ≤ 0xFFF then .ok (s.writeByte addr b) else .error ⟨.memoryOutOfBounds, trunc16 addr⟩

/-- `n` reads of one byte at ascending addresses (R47). -/
def memReadBlock (addr : Nat) : Nat → State → Except MachineFault (List Byte)
  | 0, _ => .ok []
  | n + 1, s =>
    match memRead addr s with
    | .error f => .error f
    | .ok b =>
      match memReadBlock (addr + 1) n s with
      | .error f => .error f
      | .ok bs => .ok (b :: bs)

/-- Writes of one byte each at ascending addresses (R47). -/
def memWriteBlock (addr : Nat) : List Byte → State → Except MachineFault State
  | [], s => .ok s
  | b :: bs, s =>
    match memWrite addr b s with
    | .error f => .error f
    | .ok t => memWriteBlock (addr + 1) bs t

/-- Bytes stored at ascending addresses, without the checks: what LOAD does (R55). -/
def State.writeBytes (a : Nat) : List Byte → State → State
  | [], s => s
  | b :: bs, s => State.writeBytes (a + 1) bs (s.writeByte a b)

/-- CheckRange, then the reads (R44, R46). -/
def checkedRead (addr n : Nat) (s : State) : Except MachineFault (List Byte) :=
  match checkRange addr n with
  | .error f => .error f
  | .ok _ => memReadBlock addr n s

/-- CheckRange, then the writes (R45, R46). -/
def checkedWrite (addr : Nat) (bs : List Byte) (s : State) : Except MachineFault State :=
  match checkRange addr bs.length with
  | .error f => .error f
  | .ok _ => memWriteBlock addr bs s

/-- The two bytes at an address as an opcode, big-endian (R40, R42). -/
def State.wordAt (s : State) (a : Nat) : Word := wordOfBytes (s.readByte a) (s.readByte (a + 1))

/-- `Fetch()` (R42): the opcode and the state with PC advanced. -/
def fetch (s : State) : Except MachineFault (Word × State) :=
  if 0xFFF < s.pc.toNat + 1 then
    .error ⟨.fetchOutOfBounds, if 0xFFF < s.pc.toNat then s.pc else trunc16 (s.pc.toNat + 1)⟩
  else .ok (s.wordAt s.pc.toNat, s.setPc (s.pc + 2))

/-- `Push(v)` (R69). -/
def push (v : Word) (s : State) : Except MachineFault State :=
  if h : s.sp.val < 16 then
    .ok { s with stack := s.stack.set s.sp.val v h, sp := ⟨s.sp.val + 1, by omega⟩ }
  else .error ⟨.stackOverflow, 0⟩

/-- `Pop()` (R69): the value and the state with SP decremented. -/
def pop (s : State) : Except MachineFault (Word × State) :=
  if h : s.sp.val = 0 then .error ⟨.stackUnderflow, 0⟩
  else .ok (s.stack[s.sp.val - 1]'(by omega), { s with sp := ⟨s.sp.val - 1, by omega⟩ })

/-- `Draw8()` (42_alu.md R91): the `rnd` argument of the current STEP, or a free value (log 2). -/
def State.draw8 (s : State) : Byte :=
  match s.rnd with
  | some r => r
  | none => Config.draw s.draws

/-- The draw is consumed (10_state.md R28). -/
def State.consumeDraw (s : State) : State := { s with draws := s.draws + 1 }

/-- The taken skip of R74 to R77, R102 and R103: `pc <- PC + 2` when the condition holds. -/
def State.skipIf (s : State) (c : Bool) : State := if c then s.setPc (s.pc + 2) else s

/-- `raise MachineFault(kind, addr)` in a tick whose instruction is at `a` with opcode `op` (60_exceptions.md R109),
applied to a state without the tick's writes: PC back at the instruction, the record set, nothing else. -/
def State.raise (s : State) (a op : Word) (f : MachineFault) : State :=
  { s with pc := a, fault := some ⟨f.kind, a, op, f.addr⟩ }

/-- The end of an instruction's execute phase, begun in `s` (where PC is the instruction's address + 2, 00_scope.md
R12): the state it computed, or the machine fault taken from `s`, so that its own writes are discarded (R109). The
instruction's address is PC - 2 (R12) and its opcode is its encoding (30_encoding.md R68). -/
def finish (ins : Instr) (s : State) (r : Except MachineFault State) : Host.Outcome State Fault Refusal :=
  match r with
  | .ok t => .next t
  | .error f => .next (s.raise (s.pc - 2) (encode ins) f)

end Sys2Proof.Machine
end

