-- ==== Sys2Proof/Machine/Commands.lean ====
section
/-!
DEFINITION. The host's commands other than STEP (spec 10_state.md R29): RESET, LOAD, TIMER_TICK and KEY. The state each
gets is the one `State.take` leaves, so its reply is already `done`.
-/

namespace Sys2Proof.Machine

/-- The host's next command is taken: it leaves the inbox, the `rnd` argument it carries is noted, and no answer is
given yet (log 3). -/
def State.take (s : State) (rest : List Command) (r : Option Byte) : State :=
  { s with inbox := rest, rnd := r, reply := .done }

/-- A timer counts down by one and stays at 0 (R117). -/
def countDown (b : Byte) : Byte := if 0 < b.toNat then b - 1 else b

/-- `TIMER_TICK` (R117, R122): both timers count down, and `beep` is 1 exactly when ST was 1. -/
def timerTick (s : State) : State :=
  ((s.setDt (countDown s.dt)).setSt (countDown s.st)).setReply (.beep (decide (s.st.toNat = 1)))

/-- `KEY(index, pressed)` (R123); an index outside 0..15 is refused and changes no state (R124). DESIGN CHOICE,
safe: the run goes on and the answer says so (log 5). -/
def keyCommand (k : Nat) (p : Bool) (s : State) : State :=
  if h : k < 16 then s.setKey ⟨k, h⟩ p else s.setReply .keyRefused

/-- `LOAD(data)` (R55, R56). -/
def loadCommand (data : List Byte) (s : State) : State :=
  if 0x200 + data.length ≤ 4096 then (State.writeBytes 0x200 data s).setReply .loadOk else s.setReply .loadOverflow

/-- `RESET` (70_reset_and_hazards.md R131): every component of R13 to its reset value. The parameter FONT_TABLE, the
host's schedule and the count of draws are outside the block and stay. DESIGN CHOICE, safe (log 6). -/
def resetCommand (s : State) : State :=
  { State.reset with font := s.font, inbox := s.inbox, draws := s.draws }

end Sys2Proof.Machine
end

