-- ==== Sys2Proof/Machine/Flags.lean ====
section
/-!
DEFINITION. The flag computations (spec 10_state.md R16) and the order of a flag instruction's writes (42_alu.md R79).
-/

namespace Sys2Proof.Machine

/-- A flag as the value VF takes: 1 or 0. -/
def flagByte (c : Bool) : Byte := if c then 1 else 0

/-- The carry of `8XY4` (R86): the unbounded sum exceeds 255. -/
def carryFlag (a b : Byte) : Byte := flagByte (decide (255 < a.toNat + b.toNat))
/-- The not-borrow of `a - b`, `8XY5` (R87) and `8XY7` (R89): 0 exactly when a < b. -/
def notBorrowFlag (a b : Byte) : Byte := flagByte (!decide (a.toNat < b.toNat))
/-- The bit `8XY6` shifts out (R88): bit 0. -/
def lowBitFlag (a : Byte) : Byte := trunc8 (a.toNat % 2)
/-- The bit `8XYE` shifts out (R90): bit 7. -/
def highBitFlag (a : Byte) : Byte := trunc8 (a.toNat / 128 % 2)

/-- The result to VX, then the flag to VF last (R79, R138). -/
def State.setResultAndFlag (s : State) (x : Reg) (result flag : Byte) : State := (s.setV x result).setV regF flag

end Sys2Proof.Machine
end

