-- ==== Sys2Proof/Machine/Alu.lean ====
section
/-!
DEFINITION. Register and ALU instructions (spec 42_alu.md). Operands are read before any write, results wrap modulo
256, and a flag is written to VF last (R79).
-/

namespace Sys2Proof.Machine

/-- `6XNN` LD (R80). -/
def execLdImm (x : Reg) (nn : Byte) (s : State) : Host.Outcome State Fault Refusal := .next (s.setV x nn)

/-- `7XNN` ADD, no carry (R81). -/
def execAddImm (x : Reg) (nn : Byte) (s : State) : Host.Outcome State Fault Refusal :=
  .next (s.setV x (trunc8 ((s.getV x).toNat + nn.toNat)))

/-- `8XY0` LD (R82). -/
def execLdReg (x y : Reg) (s : State) : Host.Outcome State Fault Refusal := .next (s.setV x (s.getV y))

/-- `8XY1` OR (R83). -/
def execOrReg (x y : Reg) (s : State) : Host.Outcome State Fault Refusal := .next (s.setV x (s.getV x ||| s.getV y))

/-- `8XY2` AND (R84). -/
def execAndReg (x y : Reg) (s : State) : Host.Outcome State Fault Refusal := .next (s.setV x (s.getV x &&& s.getV y))

/-- `8XY3` XOR (R85). -/
def execXorReg (x y : Reg) (s : State) : Host.Outcome State Fault Refusal := .next (s.setV x (s.getV x ^^^ s.getV y))

/-- `8XY4` ADD with carry out (R86). -/
def execAddReg (x y : Reg) (s : State) : Host.Outcome State Fault Refusal :=
  .next (s.setResultAndFlag x (trunc8 ((s.getV x).toNat + (s.getV y).toNat)) (carryFlag (s.getV x) (s.getV y)))

/-- `8XY5` SUB, VX - VY (R87). -/
def execSubReg (x y : Reg) (s : State) : Host.Outcome State Fault Refusal :=
  .next (s.setResultAndFlag x (trunc8 ((s.getV x).toNat + 256 - (s.getV y).toNat))
    (notBorrowFlag (s.getV x) (s.getV y)))

/-- `8XY6` SHR (R88): VY is not read. -/
def execShr (x _y : Reg) (s : State) : Host.Outcome State Fault Refusal :=
  .next (s.setResultAndFlag x (trunc8 ((s.getV x).toNat / 2)) (lowBitFlag (s.getV x)))

/-- `8XY7` SUBN, VY - VX (R89). -/
def execSubnReg (x y : Reg) (s : State) : Host.Outcome State Fault Refusal :=
  .next (s.setResultAndFlag x (trunc8 ((s.getV y).toNat + 256 - (s.getV x).toNat))
    (notBorrowFlag (s.getV y) (s.getV x)))

/-- `8XYE` SHL (R90): VY is not read. -/
def execShl (x _y : Reg) (s : State) : Host.Outcome State Fault Refusal :=
  .next (s.setResultAndFlag x (trunc8 ((s.getV x).toNat * 2)) (highBitFlag (s.getV x)))

/-- `CXNN` RND (R91): the draw of this STEP, masked. -/
def execRnd (x : Reg) (nn : Byte) (s : State) : Host.Outcome State Fault Refusal :=
  .next ((s.setV x (s.draw8 &&& nn)).consumeDraw)

end Sys2Proof.Machine
end

