-- ==== Sys2Proof/Machine/Control.lean ====
section
/-!
DEFINITION. Control flow instructions (spec 41_control_flow.md). Each runs with PC = its address + 2 (00_scope.md R12).
-/

namespace Sys2Proof.Machine

/-- `0000` NOP (R70): nothing. -/
def execNop (s : State) : Host.Outcome State Fault Refusal := .next s

/-- `00EE` RET (R71): `pc <- Pop()`. -/
def execRet (s : State) : Host.Outcome State Fault Refusal :=
  finish .ret s (match pop s with
    | .error f => .error f
    | .ok (a, t) => .ok (t.setPc a))

/-- `1NNN` JP (R72). -/
def execJp (nnn : Addr12) (s : State) : Host.Outcome State Fault Refusal := .next (s.setPc (zextAddr nnn))

/-- `2NNN` CALL (R73): `Push(PC)`, then the jump. -/
def execCall (nnn : Addr12) (s : State) : Host.Outcome State Fault Refusal :=
  finish (.call nnn) s (match push s.pc s with
    | .error f => .error f
    | .ok t => .ok (t.setPc (zextAddr nnn)))

/-- `3XNN` SE (R74). -/
def execSeImm (x : Reg) (nn : Byte) (s : State) : Host.Outcome State Fault Refusal :=
  .next (s.skipIf (decide (s.getV x = nn)))

/-- `4XNN` SNE (R75). -/
def execSneImm (x : Reg) (nn : Byte) (s : State) : Host.Outcome State Fault Refusal :=
  .next (s.skipIf (decide (s.getV x ≠ nn)))

/-- `5XY0` SE (R76). -/
def execSeReg (x y : Reg) (s : State) : Host.Outcome State Fault Refusal :=
  .next (s.skipIf (decide (s.getV x = s.getV y)))

/-- `9XY0` SNE (R77). -/
def execSneReg (x y : Reg) (s : State) : Host.Outcome State Fault Refusal :=
  .next (s.skipIf (decide (s.getV x ≠ s.getV y)))

/-- `BNNN` JP V0 (R78): NNN + V0, not wrapped to 12 bits. -/
def execJpV0 (nnn : Addr12) (s : State) : Host.Outcome State Fault Refusal :=
  .next (s.setPc (zextAddr nnn + zextByte (s.getV 0)))

end Sys2Proof.Machine
end

