-- ==== Sys2Proof/Machine/Display.lean ====
section
/-!
DEFINITION. Display instructions and the sprite engine (spec 44_display.md).
-/

namespace Sys2Proof.Machine

/-- Column `c` of a sprite row byte: bit 7 - c, the most significant bit leftmost (R99). -/
def spriteBit (b : Byte) (c : Nat) : Bool := b.getLsbD (7 - c)

/-- One sprite cell (R100): where the sprite bit is set, note a pixel that goes from ON to OFF and flip the pixel.
The display and `hit` are passed on. -/
def drawCell (b : Byte) (x0 y c : Nat) (a : Screen × Bool) : Screen × Bool :=
  if spriteBit b c then
    (a.1.flip (Fin.ofNat 64 (x0 + c)) (Fin.ofNat 32 y),
      a.2 || a.1.pixel (Fin.ofNat 64 (x0 + c)) (Fin.ofNat 32 y))
  else a

/-- One sprite row, columns 0 to 7 (R100); `x0 + c` is taken modulo 64 and `y` modulo 32 (R99). -/
def drawRow (b : Byte) (x0 y : Nat) (a : Screen × Bool) : Screen × Bool :=
  (List.range 8).foldl (fun acc c => drawCell b x0 y c acc) a

/-- The sprite's rows from row coordinate `y` down (R100). -/
def drawRows (x0 : Nat) : Nat → List Byte → Screen × Bool → Screen × Bool
  | _, [], a => a
  | y, b :: bs, a => drawRows x0 (y + 1) bs (drawRow b x0 y a)

/-- `00E0` CLS (R98). -/
def execCls (s : State) : Host.Outcome State Fault Refusal := .next (s.setDisp Screen.clear)

/-- `DXYN` DRW (R100): the range check, the draw at (VX mod 64, VY mod 32), then `hit` to VF, last. -/
def execDrw (x y : Reg) (n : Nat) (s : State) : Host.Outcome State Fault Refusal :=
  finish (.drw x y n) s (match checkedRead s.i.toNat n s with
    | .error f => .error f
    | .ok bs =>
      let r := drawRows ((s.getV x).toNat % 64) ((s.getV y).toNat % 32) bs (s.disp, false)
      .ok ((s.setDisp r.1).setV regF (flagByte r.2)))

end Sys2Proof.Machine
end

