-- ==== Sys2Proof/Machine/IndexMem.lean ====
section
/-!
DEFINITION. Index register and memory instructions (spec 43_index_memory.md). Addresses are I plus an offset, not
wrapped; no access changes I.
-/

namespace Sys2Proof.Machine

/-- The three decimal digits of a byte, hundreds first (R95). -/
def bcdDigits (b : Byte) : List Byte := [trunc8 (b.toNat / 100), trunc8 (b.toNat / 10 % 10), trunc8 (b.toNat % 10)]

/-- `V0..VX` in ascending order (R96). -/
def State.lowRegs (s : State) (x : Reg) : List Byte := s.v.toList.take (x.val + 1)

/-- `V[k], V[k+1], ... <- bs` in ascending order (R97). -/
def putRegs (k : Nat) : List Byte → Vector Byte 16 → Vector Byte 16
  | [], v => v
  | b :: bs, v => putRegs (k + 1) bs (v.setIfInBounds k b)

/-- `ANNN` LD I (R92). -/
def execLdI (nnn : Addr12) (s : State) : Host.Outcome State Fault Refusal := .next (s.setI (zextAddr nnn))

/-- `FX1E` ADD I (R93): wraps modulo 65536, no flag. -/
def execAddI (x : Reg) (s : State) : Host.Outcome State Fault Refusal :=
  .next (s.setI (trunc16 (s.i.toNat + (s.getV x).toNat)))

/-- `FX29` LD F (R94): VX is not masked. -/
def execLdF (x : Reg) (s : State) : Host.Outcome State Fault Refusal :=
  .next (s.setI (trunc16 ((s.getV x).toNat * 5)))

/-- `FX33` LD B (R95). -/
def execLdB (x : Reg) (s : State) : Host.Outcome State Fault Refusal :=
  finish (.ldB x) s (checkedWrite s.i.toNat (bcdDigits (s.getV x)) s)

/-- `FX55` LD [I], VX (R96). -/
def execStoreRegs (x : Reg) (s : State) : Host.Outcome State Fault Refusal :=
  finish (.storeRegs x) s (checkedWrite s.i.toNat (s.lowRegs x) s)

/-- `FX65` LD VX, [I] (R97). -/
def execLoadRegs (x : Reg) (s : State) : Host.Outcome State Fault Refusal :=
  finish (.loadRegs x) s (match checkedRead s.i.toNat (x.val + 1) s with
    | .error f => .error f
    | .ok bs => .ok (s.setVs (putRegs 0 bs s.v)))

end Sys2Proof.Machine
end

