-- ==== Sys2Proof/Machine/KeysTimers.lean ====
section
/-!
DEFINITION. Keypad and timer instructions (spec 45_keys_timers.md).
-/

namespace Sys2Proof.Machine

/-- `Key[k]`, with the index check of R102 and R103. -/
def checkedKey (k : Nat) (s : State) : Except MachineFault Bool :=
  if h : k < 16 then .ok (s.key[k]) else .error ⟨.keyIndexOutOfRange, trunc16 k⟩

/-- The lowest pressed key, if any (R105). -/
def State.firstKey (s : State) : Option (Fin 16) := (List.finRange 16).find? (fun k => s.key[k])

/-- `EX9E` SKP (R102). -/
def execSkp (x : Reg) (s : State) : Host.Outcome State Fault Refusal :=
  finish (.skp x) s (match checkedKey (s.getV x).toNat s with
    | .error f => .error f
    | .ok p => .ok (s.skipIf p))

/-- `EXA1` SKNP (R103). -/
def execSknp (x : Reg) (s : State) : Host.Outcome State Fault Refusal :=
  finish (.sknp x) s (match checkedKey (s.getV x).toNat s with
    | .error f => .error f
    | .ok p => .ok (s.skipIf (!p)))

/-- `FX07` LD VX, DT (R104). -/
def execLdVxDt (x : Reg) (s : State) : Host.Outcome State Fault Refusal := .next (s.setV x s.dt)

/-- `FX0A` LD VX, K (R105): the lowest pressed key to VX, or PC back to this instruction. -/
def execLdVxK (x : Reg) (s : State) : Host.Outcome State Fault Refusal :=
  match s.firstKey with
  | some k => .next (s.setV x (trunc8 k.val))
  | none => .next (s.setPc (s.pc - 2))

/-- `FX15` LD ST, VX (R106). -/
def execLdStVx (x : Reg) (s : State) : Host.Outcome State Fault Refusal := .next (s.setSt (s.getV x))

end Sys2Proof.Machine
end

