-- ==== Sys2Proof/Machine/Tick.lean ====
section
/-!
DEFINITION. One command of the host: STEP, "exactly one fetch-decode-execute cycle" (spec 60_exceptions.md R121), and
the choice of the command that is run.
-/

namespace Sys2Proof.Machine

/-- `STEP` (R121): nothing while a fault is recorded (R111); else the fetch, which may fault with opcode 0 (R109); then
the instruction, or nothing for an unrecognised opcode (30_encoding.md R64). -/
def tick (s : State) : Host.Outcome State Fault Refusal :=
  match s.fault with
  | some _ => .next s
  | none =>
    match fetch s with
    | .error f => .next (s.raise s.pc 0 f)
    | .ok (op, t) =>
      match decodeWord op with
      | some ins => exec ins t
      | none => .next t

/-- One command, run on the state it was taken from. -/
def runCommand (c : Command) (s : State) : Host.Outcome State Fault Refusal :=
  match c with
  | .reset => .next (resetCommand s)
  | .load data => .next (loadCommand data s)
  | .step _ => tick s
  | .timerTick => .next (timerTick s)
  | .key k p => .next (keyCommand k p s)

/-- The byte a command brings for CXNN: only STEP has one (10_state.md R29). -/
def Command.rndArg : Command → Option Byte
  | .step r => some r
  | .reset => none
  | .load _ => none
  | .timerTick => none
  | .key _ _ => none

/-- The next command of the host is taken and run; a host with no command listed issues a STEP whose draw is free
(log 3). -/
def nextCommand (s : State) : Host.Outcome State Fault Refusal :=
  match s.inbox with
  | [] => tick (s.take [] none)
  | c :: rest => runCommand c (s.take rest c.rndArg)

/-- DESIGN CHOICE, safe (log 8): `s` with the instruction word stored where the next step fetches: the host lists no command, so that the next
command is a STEP, no fault is recorded (R111), and PC is one the fetch accepts (R42). -/
def State.placeWord (s : State) (op : Word) : State :=
  let a := if s.pc.toNat + 1 ≤ 0xFFF then s.pc else 0x200
  State.writeBytes a.toNat (bytesOfWord op) { s with pc := a, fault := none, inbox := [] }

end Sys2Proof.Machine
end

