-- ==== Sys2Proof/Machine/Step.lean ====
section
/-!
DEFINITION. The step: one command of the host (spec 20_memory.md R48), STEP when the host lists none.
-/

namespace Sys2Proof.Machine

/-- One step of the machine. -/
def step (s : State) : Host.Outcome State Fault Refusal := nextCommand s

/-- `s` with the instruction whose bits are `w`, numbered as spec/opcode_table.json numbers them, placed where `step`
fetches its next instruction (log 8). -/
def State.withFetchWord (s : State) (nbits w : Nat) : State := s.placeWord (BitVec.ofNat 16 (w % 2 ^ nbits))

end Sys2Proof.Machine
end

