-- ==== Sys2Proof/Machine/Outputs.lean ====
section
/-!
DEFINITION. What the host reads between commands (spec 10_state.md R30, 60_exceptions.md R125): the display, the keys,
the fault, and the results of TIMER_TICK and LOAD. A read is a function of the state, so it changes none.
-/

namespace Sys2Proof.Machine

/-- `getDisplay` (44_display.md R101): the 2048 bits of `Disp`, row-major. -/
def State.displayOut (s : State) : List Bool := s.disp.toList.flatMap Vector.toList

/-- The `keys` output: the 16 bits of `Key`. -/
def State.keysOut (s : State) : List Bool := s.key.toList

/-- The `fault` output: the record, or none. -/
def State.faultOut (s : State) : Option FaultRecord := s.fault

/-- The code of a fault kind (R27). -/
def FaultKind.code : FaultKind → Nat
  | .fetchOutOfBounds => 1
  | .memoryOutOfBounds => 2
  | .stackOverflow => 3
  | .stackUnderflow => 4
  | .keyIndexOutOfRange => 5

/-- The fault code, 0 for no fault (R27). -/
def State.faultCode (s : State) : Nat :=
  match s.fault with
  | some f => f.kind.code
  | none => 0

/-- The `beep` output, when the latest command was a TIMER_TICK (60_exceptions.md R118). -/
def State.beepOut (s : State) : Option Bool :=
  match s.reply with
  | .beep b => some b
  | _ => none

end Sys2Proof.Machine
end

