-- ==== Sys2Proof/Safety.lean ====
section
/-!
DEFINITION. The end conditions of a run (spec 70_reset_and_hazards.md R144) and the invariants claims use.
-/

namespace Sys2Proof.Machine

/-- End condition (a) of R144: a fault is recorded. -/
abbrev State.Faulted (s : State) : Prop := s.fault ≠ none

/-- End condition (b) of R144: no fault, and the word at PC is `1NNN` with NNN = PC, a jump to itself. -/
abbrev State.Parked (s : State) : Prop :=
  s.fault = none ∧ s.pc.toNat ≤ 0xFFE ∧ (s.wordAt s.pc.toNat).toNat = 0x1000 + s.pc.toNat

/-- Memory is in its canonical form: rising addresses inside 0x000..0xFFF, no entry equal to the reset contents. -/
abbrev State.MemCanonical (s : State) : Prop := Memory.wf s.font s.mem = true

/-- The bounds of R19: PC at most 0x10FE, and every stack entry a post-fetch PC, at most 0x1000. -/
abbrev State.PcBounded (s : State) : Prop :=
  s.pc.toNat ≤ 0x10FE ∧ ∀ k : Fin 16, (s.stack[k]).toNat ≤ 0x1000

/-- The fault kinds an opcode's instruction may raise in its execute phase (60_exceptions.md R108). -/
def raisedBy (op : Word) : Option FaultKind :=
  match decodeWord op with
  | some (.drw _ _ _) => some .memoryOutOfBounds
  | some (.ldB _) => some .memoryOutOfBounds
  | some (.storeRegs _) => some .memoryOutOfBounds
  | some (.loadRegs _) => some .memoryOutOfBounds
  | some (.call _) => some .stackOverflow
  | some .ret => some .stackUnderflow
  | some (.skp _) => some .keyIndexOutOfRange
  | some (.sknp _) => some .keyIndexOutOfRange
  | _ => none

/-- What R26 and R27 say of a record and R109 of PC beside it: PC is the record's `pc`; the opcode is one that raises
the kind, or 0 for a fetch fault; `addr` is the first address out of range, the key index above 15, or 0. -/
def FaultRecord.coherent (f : FaultRecord) (pc : Word) : Bool :=
  f.pc == pc &&
  match f.kind with
  | .fetchOutOfBounds => f.opcode == 0 && decide (0xFFE < pc.toNat) && decide (f.addr.toNat = max pc.toNat 0x1000)
  | .memoryOutOfBounds => raisedBy f.opcode == some .memoryOutOfBounds && decide (0x1000 ≤ f.addr.toNat)
  | .stackOverflow => raisedBy f.opcode == some .stackOverflow && f.addr == 0
  | .stackUnderflow => raisedBy f.opcode == some .stackUnderflow && f.addr == 0
  | .keyIndexOutOfRange =>
    raisedBy f.opcode == some .keyIndexOutOfRange && decide (15 < f.addr.toNat) && decide (f.addr.toNat ≤ 255)

/-- The fault record, if there is one, is coherent with PC. -/
abbrev State.FaultCoherent (s : State) : Prop :=
  match s.fault with
  | none => True
  | some f => f.coherent s.pc = true

end Sys2Proof.Machine
end

