-- ==== Sys2Proof/Certificates/Slice0/Obligations.lean ====
section
/-!
DEFINITION. The statements for the provers. `tick` is the STEP command, `runCommand` any command (spec 60_exceptions.md
R121, R126); `step` takes the host's next command and runs it. `exec` is the execute phase, which begins with PC = the
instruction's address + 2 (00_scope.md R12).
-/

namespace Sys2Proof.Claims

open Sys2Proof.Machine

/-- The execute phase of `ins` from `s` completes in a state of which `P` holds. -/
def Runs (ins : Instr) (s : State) (P : State → Prop) : Prop := ∃ t, exec ins s = .next t ∧ P t

/-- The execute phase of `ins` from `s` takes the machine fault (R109): PC at the instruction, the record, no other
change. -/
def Faults (ins : Instr) (s : State) (k : FaultKind) (addr : Nat) : Prop :=
  exec ins s = .next { s with pc := s.pc - 2, fault := some ⟨k, s.pc - 2, encode ins, BitVec.ofNat 16 addr⟩ }

/-- The word `n` decodes to `ins`: the Encoding line of the instruction's rule, its fields in their places (R59). -/
def EncodedAs (ins : Instr) (n : Nat) : Prop := decodeWord (BitVec.ofNat 16 n) = some ins

/-- Every byte of memory reads as before. -/
def SameMemory (s t : State) : Prop := ∀ a : Nat, t.readByte a = s.readByte a

/-- Nothing but PC changed. -/
def OnlyPc (s t : State) : Prop := t = { s with pc := t.pc } ∧ SameMemory s t
/-- Nothing but the register array changed. -/
def OnlyV (s t : State) : Prop := t = { s with v := t.v } ∧ SameMemory s t
/-- Nothing but I changed. -/
def OnlyI (s t : State) : Prop := t = { s with i := t.i } ∧ SameMemory s t

/-- Register x became b and every other register kept its value. -/
def SetsOnly (s t : State) (x : Reg) (b : Byte) : Prop := t.getV x = b ∧ ∀ k : Reg, k ≠ x → t.getV k = s.getV k

/-- A flag instruction's registers: VF is the flag, VX the result unless X = F, the others as before. -/
def SetsResultAndFlag (s t : State) (x : Reg) (result flag : Nat) : Prop :=
  (t.getV 15).toNat = flag ∧ (x ≠ 15 → (t.getV x).toNat = result) ∧
    ∀ k : Reg, k ≠ x → k ≠ 15 → t.getV k = s.getV k

/-- The table of R108: the fault an instruction takes in its execute phase, with the recorded address. -/
def faultOf (ins : Instr) (s : State) : Option (FaultKind × Nat) :=
  match ins with
  | .drw _ _ n =>
    if 1 ≤ n ∧ s.i.toNat + n - 1 > 0xFFF then some (.memoryOutOfBounds, max s.i.toNat 0x1000) else none
  | .ldB _ => if s.i.toNat + 2 > 0xFFF then some (.memoryOutOfBounds, max s.i.toNat 0x1000) else none
  | .storeRegs x => if s.i.toNat + x.val > 0xFFF then some (.memoryOutOfBounds, max s.i.toNat 0x1000) else none
  | .loadRegs x => if s.i.toNat + x.val > 0xFFF then some (.memoryOutOfBounds, max s.i.toNat 0x1000) else none
  | .call _ => if s.sp.val = 16 then some (.stackOverflow, 0) else none
  | .ret => if s.sp.val = 0 then some (.stackUnderflow, 0) else none
  | .skp x => if (s.getV x).toNat > 15 then some (.keyIndexOutOfRange, (s.getV x).toNat) else none
  | .sknp x => if (s.getV x).toNat > 15 then some (.keyIndexOutOfRange, (s.getV x).toNat) else none
  | _ => none

/-- The registers an instruction may write (10_state.md R16, R17). -/
def writesReg (ins : Instr) (s : State) (k : Reg) : Prop :=
  match ins with
  | .ldImm x _ => k = x
  | .addImm x _ => k = x
  | .ldReg x _ => k = x
  | .orReg x _ => k = x
  | .andReg x _ => k = x
  | .xorReg x _ => k = x
  | .addReg x _ => k = x ∨ k = 15
  | .subReg x _ => k = x ∨ k = 15
  | .shr x _ => k = x ∨ k = 15
  | .subnReg x _ => k = x ∨ k = 15
  | .shl x _ => k = x ∨ k = 15
  | .rnd x _ => k = x
  | .drw _ _ _ => k = 15
  | .ldVxDt x => k = x
  | .ldVxK x => k = x ∧ ∃ j : Fin 16, s.key[j] = true
  | .loadRegs x => k ≤ x
  | _ => False

/-- The instructions whose execute phase may load PC (10_state.md R18). -/
def writesPc : Instr → Bool
  | .jp _ => true
  | .call _ => true
  | .ret => true
  | .jpV0 _ => true
  | .seImm _ _ => true
  | .sneImm _ _ => true
  | .seReg _ _ => true
  | .sneReg _ _ => true
  | .skp _ => true
  | .sknp _ => true
  | .ldVxK _ => true
  | _ => false

/-- The sprite of `DXYN` has a set bit at a cell that lands on pixel (px, py): row r, column c, the most significant
bit leftmost, wrapping at both edges (44_display.md R99, R100). -/
def SpriteOn (s : State) (x y : Reg) (n : Nat) (px : Fin 64) (py : Fin 32) : Prop :=
  ∃ r c : Nat, r < n ∧ c < 8 ∧ px.val = ((s.getV x).toNat % 64 + c) % 64 ∧
    py.val = ((s.getV y).toNat % 32 + r) % 32 ∧
    (s.readByte (s.i.toNat + r)).toNat / 2 ^ (7 - c) % 2 = 1

/-- Every component of 10_state.md R13 at the value of R31, for the table `font`. -/
structure AtReset (font : Vector Byte 80) (t : State) : Prop where
  fontBytes : ∀ (a : Nat) (h : a < 80), t.readByte a = font[a]
  otherBytes : ∀ a : Nat, 80 ≤ a → a < 4096 → t.readByte a = 0
  v : ∀ x : Reg, t.getV x = 0
  pc : t.pc = 0x200
  i : t.i = 0
  stack : ∀ k : Fin 16, t.stack[k] = 0
  sp : t.sp = 0
  dt : t.dt = 0
  st : t.st = 0
  disp : ∀ (px : Fin 64) (py : Fin 32), t.disp.pixel px py = false
  key : ∀ k : Fin 16, t.key[k] = false
  fault : t.fault = none

end Sys2Proof.Claims

open Sys2Proof Sys2Proof.Machine Sys2Proof.Claims

/-! ### Encoding -/

/-- Decoding an encoded instruction gives it back, as a word and as bytes with anything after them. R68 marks the
sentence "Decoding (rule R61) and encoding are inverse on the recognised set" as derived. -/
def Obligations.DecodeOfEncodeIsTheInstruction : Prop :=
  ∀ ins : Instr, wellFormed ins = true →
    decodeWord (encode ins) = some ins ∧ ∀ rest : List Byte, decodeBytes (encodeBytes ins ++ rest) = .ok (ins, rest)

/-- The other direction: a decoded word is the encoding of a well-formed instruction, so no bit is dropped. -/
def Obligations.EncodeOfDecodeIsTheWord : Prop :=
  ∀ (op : Word) (ins : Instr), decodeWord op = some ins → wellFormed ins = true ∧ encode ins = op

/-- R65 (marked derived by the spec): the unrecognised set, and the digits that are always recognised. -/
def Obligations.UnrecognisedSetIsExactlyThis : Prop :=
  ∀ op : Word,
    (decodeWord op = none ↔
      (op.toNat / 4096 = 0x0 ∧ op.toNat % 4096 ∉ [0x000, 0x0E0, 0x0EE]) ∨
      ((op.toNat / 4096 = 0x5 ∨ op.toNat / 4096 = 0x9) ∧ op.toNat % 16 ≠ 0) ∨
      (op.toNat / 4096 = 0x8 ∧ op.toNat % 16 ∈ [0x8, 0x9, 0xA, 0xB, 0xC, 0xD, 0xF]) ∨
      (op.toNat / 4096 = 0xE ∧ op.toNat % 256 ∉ [0x9E, 0xA1]) ∨
      (op.toNat / 4096 = 0xF ∧ op.toNat % 256 ∉ [0x07, 0x0A, 0x15, 0x1E, 0x29, 0x33, 0x55, 0x65])) ∧
    (op.toNat / 4096 ∈ [1, 2, 3, 4, 6, 7, 10, 11, 12, 13] → ∃ ins, decodeWord op = some ins)

/-- R61: exact pattern matching against the table; no two rows overlap; no row, no instruction. -/
def Obligations.DecodingIsExactPatternMatching : Prop :=
  ∀ op : Word,
    (opcodeTable.filter fun p => p.fits op).length ≤ 1 ∧
    (∀ ins, decodeWord op = some ins → patternOf ins ∈ opcodeTable ∧ (patternOf ins).fits op = true) ∧
    (decodeWord op = none ↔ ∀ p ∈ opcodeTable, p.fits op = false)

/-- A few words, written out from R59 and R62 by hand, decode to the instructions they stand for. -/
def Obligations.WrittenWordsDecode : Prop :=
  decodeWord 0x83A4 = some (.addReg 3 10) ∧ decodeWord 0x1234 = some (.jp 0x234) ∧
  decodeWord 0xD12F = some (.drw 1 2 15) ∧ decodeWord 0xFE33 = some (.ldB 14) ∧
  decodeWord 0xE59E = some (.skp 5) ∧ decodeWord 0x00EE = some .ret ∧ decodeWord 0xF018 = none

/-! ### The step and the commands -/

/-- When the bytes at PC decode to an instruction, a step is the execute phase of that instruction with PC advanced by
2. Around it the step takes the host's command, which is the model's form of the host (logs 2, 3, 4): an empty inbox
means a STEP with a free draw. -/
def Obligations.StepRunsTheDecodedInstruction : Prop :=
  ∀ (s : State) (ins : Instr), s.fault = none → s.pc.toNat ≤ 0xFFE →
    decodeWord (BitVec.ofNat 16 ((s.readByte s.pc.toNat).toNat * 256 + (s.readByte (s.pc.toNat + 1)).toNat)) = some ins →
    (s.inbox = [] → step s = exec ins { s with pc := s.pc + 2, inbox := [], rnd := none, reply := .done }) ∧
    (∀ (r : Byte) (rest : List Command), s.inbox = .step r :: rest →
      step s = exec ins { s with pc := s.pc + 2, inbox := rest, rnd := some r, reply := .done })

/-- A step with a command listed runs that command on the state without it. The inbox is the model's form of the
host's schedule (log 3). -/
def Obligations.StepRunsTheHostsNextCommand : Prop :=
  ∀ (s : State) (c : Command) (rest : List Command), s.inbox = c :: rest →
    step s = runCommand c { s with inbox := rest, rnd := c.rndArg, reply := .done }

/-- R64: the tick of an unrecognised opcode advances PC by 2 and does nothing else. -/
def Obligations.UnrecognisedWordIsASilentNoOp : Prop :=
  ∀ s : State, s.fault = none → s.pc.toNat ≤ 0xFFE → decodeWord (s.wordAt s.pc.toNat) = none →
    ∃ t, tick s = .next t ∧ t.pc.toNat = s.pc.toNat + 2 ∧ OnlyPc s t

/-- R42: the fetch inside memory, and the fetch that faults and leaves everything but the record unchanged. -/
def Obligations.FetchReadsTwoBytesOrFaults : Prop :=
  ∀ s : State,
    (s.pc.toNat + 1 ≤ 0xFFF → ∃ (op : Word) (t : State), fetch s = .ok (op, t) ∧
      op.toNat = (s.readByte s.pc.toNat).toNat * 256 + (s.readByte (s.pc.toNat + 1)).toNat ∧
      t.pc.toNat = s.pc.toNat + 2 ∧ OnlyPc s t) ∧
    (s.fault = none → s.pc.toNat + 1 > 0xFFF → ∃ f : FaultRecord, tick s = .next { s with fault := some f } ∧
      f.kind = .fetchOutOfBounds ∧ f.pc = s.pc ∧ f.opcode = 0 ∧
      f.addr.toNat = if s.pc.toNat > 0xFFF then s.pc.toNat else s.pc.toNat + 1)

/-- R111: a recorded fault halts the core; the other commands work as without it; only RESET clears it. -/
def Obligations.RecordedFaultHaltsTheCore : Prop :=
  ∀ (s : State) (f : FaultRecord), s.fault = some f →
    tick s = .next s ∧ (∀ r : Byte, runCommand (.step r) s = .next s) ∧
    (∀ c : Command, c ≠ .reset → (∀ r, c ≠ .step r) →
      ∃ t, runCommand c { s with fault := none } = .next t ∧ runCommand c s = .next { t with fault := some f }) ∧
    (∀ (c : Command) (t : State), c ≠ .reset → runCommand c s = .next t → t.fault = some f) ∧
    ∃ t, runCommand .reset s = .next t ∧ t.fault = none

/-- No step stops the machine: a STEP either executes an instruction or, when a fault is recorded, does nothing
(70_reset_and_hazards.md R144), and every other command answers too. -/
def Obligations.EveryStepAnswersANextState : Prop := ∀ s : State, ∃ t, step s = .next t

/-- R108 (marked derived by the spec): an instruction faults exactly when its row says, with the recorded address of
the row, and no other instruction faults; the fetch faults exactly when PC + 1 > 0xFFF. -/
def Obligations.FaultsAreExactlyTheListedOnes : Prop :=
  (∀ (s : State) (ins : Instr), s.fault = none → Runs ins s fun t =>
    t.fault = (faultOf ins s).map fun p => ⟨p.1, s.pc - 2, encode ins, BitVec.ofNat 16 p.2⟩) ∧
  ∀ s : State, (∃ f, fetch s = .error f) ↔ s.pc.toNat + 1 > 0xFFF

/-- R109: a tick that faults changes nothing but the record, which holds the instruction's address and the fetched
opcode, or 0 when the fetch faulted. -/
def Obligations.FaultsArePrecise : Prop :=
  ∀ (s t : State) (f : FaultRecord), s.fault = none → tick s = .next t → t.fault = some f →
    t = { s with pc := f.pc, fault := some f } ∧ f.pc = s.pc ∧
    (f.kind = .fetchOutOfBounds → f.opcode = 0) ∧
    (f.kind ≠ .fetchOutOfBounds → f.opcode = s.wordAt s.pc.toNat)

/-! ### Invariants -/

/-- The three invariants hold after reset. The form of the memory list is the model's (log 7). -/
def Obligations.ResetMeetsTheInvariants : Prop :=
  State.reset.MemCanonical ∧ State.reset.PcBounded ∧ State.reset.FaultCoherent

/-- Every step, whatever command it runs, keeps memory in its canonical form. The form is the model's (log 7). -/
def Obligations.MemoryStaysCanonical : Prop :=
  ∀ s t : State, s.MemCanonical → step s = .next t → t.MemCanonical

/-- Every step keeps PC at most 0x10FE and every stack entry at most 0x1000, the bounds of R19, which the spec marks as
derived. -/
def Obligations.PcAndStackStayBounded : Prop :=
  ∀ s t : State, s.PcBounded → step s = .next t → t.PcBounded

/-- Every step keeps the fault record coherent with R26, R27 and R109 (`State.FaultCoherent`): PC at the faulting
instruction, the opcode one that raises the kind, the address as recorded for the kind. -/
def Obligations.FaultRecordStaysCoherent : Prop :=
  ∀ s t : State, s.FaultCoherent → step s = .next t → t.FaultCoherent

/-! ### Reset and the host's commands -/

/-- R131 and R31: RESET gives every component its reset value, and the state at construction has them too. -/
def Obligations.ResetRestoresEveryComponent : Prop :=
  AtReset State.reset.font State.reset ∧
  ∀ s : State, ∃ t, runCommand .reset s = .next t ∧ AtReset s.font t

/-- R117 and R122: each non-zero timer counts down by one, a timer at 0 stays at 0, beep is 1 exactly when ST was 1,
and no register, byte of memory, pixel, key or fault changes. -/
def Obligations.TimerTickCountsBothTimersDown : Prop :=
  ∀ s : State, ∃ t, runCommand .timerTick s = .next t ∧
    t.dt.toNat = s.dt.toNat - 1 ∧ t.st.toNat = s.st.toNat - 1 ∧
    t.beepOut = some (decide (s.st.toNat = 1)) ∧
    t = { s with dt := t.dt, st := t.st, reply := t.reply } ∧ SameMemory s t

/-- R118: of consecutive TIMER_TICKs from ST = n, exactly the n-th reports the beep. -/
def Obligations.BeepIsAOneShot : Prop :=
  ∀ (s : State) (k : Nat), (timerTick^[k + 1] s).beepOut = some (decide (s.st.toNat = k + 1)) ∧
    (timerTick^[k + 1] s).st.toNat = s.st.toNat - (k + 1)

/-- R123: KEY sets one key and changes nothing else. -/
def Obligations.KeyCommandSetsOneKey : Prop :=
  ∀ (s : State) (k : Fin 16) (p : Bool), ∃ t, runCommand (.key k.val p) s = .next t ∧
    t.key[k] = p ∧ (∀ j : Fin 16, j ≠ k → t.key[j] = s.key[j]) ∧ t = { s with key := t.key } ∧ SameMemory s t

/-- R124: a KEY with an index outside 0..15 changes no state. That the run goes on and the answer says so is the
model's choice (log 5). -/
def Obligations.KeyOutOfRangeIsRefused : Prop :=
  ∀ (s : State) (k : Nat) (p : Bool), 15 < k → runCommand (.key k p) s = .next { s with reply := .keyRefused }

/-- R55 and R56: LOAD writes its bytes at 0x200 and nothing else when they fit; else it changes nothing. -/
def Obligations.LoadWritesTheProgramOrNothing : Prop :=
  ∀ (s : State) (data : List Byte),
    (0x200 + data.length ≤ 4096 → ∃ t, runCommand (.load data) s = .next t ∧ t.reply = .loadOk ∧
      (∀ (k : Nat) (h : k < data.length), t.readByte (0x200 + k) = data[k]) ∧
      (∀ a : Nat, a < 0x200 ∨ 0x200 + data.length ≤ a → t.readByte a = s.readByte a) ∧
      t = { s with mem := t.mem, reply := t.reply }) ∧
    (0x200 + data.length > 4096 → runCommand (.load data) s = .next { s with reply := .loadOverflow })

/-- The host's reads: 2048 bits, pixel (x, y) at index 64 y + x; 16 key bits. -/
def Obligations.HostReadsDisplayRowMajor : Prop :=
  ∀ s : State, s.displayOut.length = 2048 ∧
    (∀ (x : Fin 64) (y : Fin 32), s.displayOut[64 * y.val + x.val]? = some (s.disp.pixel x y)) ∧
    s.keysOut.length = 16 ∧ ∀ k : Fin 16, s.keysOut[k.val]? = some s.key[k]

/-! ### Control flow -/

/-- R70, R72, R78: NOP changes nothing more than the fetch did, so its tick advances PC by 2; a jump loads PC, with V0
added and no wrap to 12 bits for `BNNN`. -/
def Obligations.NopAndJumpsSetPc : Prop :=
  EncodedAs .nop 0 ∧
  (∀ s : State, exec .nop s = .next s) ∧
  (∀ s : State, s.fault = none → s.pc.toNat ≤ 0xFFE → s.wordAt s.pc.toNat = 0 →
    tick s = .next { s with pc := s.pc + 2 }) ∧
  (∀ (s : State) (nnn : Addr12), EncodedAs (.jp nnn) (0x1000 + nnn.toNat) ∧ Runs (.jp nnn) s fun t =>
    t.pc.toNat = nnn.toNat ∧ OnlyPc s t) ∧
  (∀ (s : State) (nnn : Addr12), EncodedAs (.jpV0 nnn) (0xB000 + nnn.toNat) ∧ Runs (.jpV0 nnn) s fun t =>
    t.pc.toNat = nnn.toNat + (s.getV 0).toNat ∧ OnlyPc s t)

/-- R74 to R77: a skip advances PC by a further 2 exactly when its comparison holds, and changes nothing else. -/
def Obligations.SkipsCompareRegisters : Prop :=
  ∀ (s : State) (x y : Reg) (nn : Byte),
    EncodedAs (.seImm x nn) (0x3000 + x.val * 0x100 + nn.toNat) ∧
    EncodedAs (.sneImm x nn) (0x4000 + x.val * 0x100 + nn.toNat) ∧
    EncodedAs (.seReg x y) (0x5000 + x.val * 0x100 + y.val * 0x10 + 0) ∧
    EncodedAs (.sneReg x y) (0x9000 + x.val * 0x100 + y.val * 0x10 + 0) ∧
    (Runs (.seImm x nn) s fun t => OnlyPc s t ∧
      (s.getV x = nn → t.pc = s.pc + 2) ∧ (s.getV x ≠ nn → t.pc = s.pc)) ∧
    (Runs (.sneImm x nn) s fun t => OnlyPc s t ∧
      (s.getV x ≠ nn → t.pc = s.pc + 2) ∧ (s.getV x = nn → t.pc = s.pc)) ∧
    (Runs (.seReg x y) s fun t => OnlyPc s t ∧
      (s.getV x = s.getV y → t.pc = s.pc + 2) ∧ (s.getV x ≠ s.getV y → t.pc = s.pc)) ∧
    (Runs (.sneReg x y) s fun t => OnlyPc s t ∧
      (s.getV x ≠ s.getV y → t.pc = s.pc + 2) ∧ (s.getV x = s.getV y → t.pc = s.pc))

/-- R73: CALL pushes PC at SP, increments SP and jumps; on a full stack it faults. -/
def Obligations.CallPushesTheReturnAddress : Prop :=
  ∀ (s : State) (nnn : Addr12),
    EncodedAs (.call nnn) (0x2000 + nnn.toNat) ∧
    (s.sp.val < 16 → Runs (.call nnn) s fun t =>
      t.pc.toNat = nnn.toNat ∧ t.sp.val = s.sp.val + 1 ∧
      (∀ k : Fin 16, k.val = s.sp.val → t.stack[k] = s.pc) ∧
      (∀ k : Fin 16, k.val ≠ s.sp.val → t.stack[k] = s.stack[k]) ∧
      t = { s with pc := t.pc, sp := t.sp, stack := t.stack } ∧ SameMemory s t) ∧
    (s.sp.val = 16 → Faults (.call nnn) s .stackOverflow 0)

/-- R71: RET decrements SP and loads PC with the entry there; on an empty stack it faults. -/
def Obligations.ReturnPopsTheReturnAddress : Prop :=
  ∀ s : State,
    EncodedAs .ret 0x00EE ∧
    (s.sp.val ≠ 0 → Runs .ret s fun t =>
      t.sp.val = s.sp.val - 1 ∧ (∀ k : Fin 16, k.val = s.sp.val - 1 → t.pc = s.stack[k]) ∧
      t = { s with pc := t.pc, sp := t.sp } ∧ SameMemory s t) ∧
    (s.sp.val = 0 → Faults .ret s .stackUnderflow 0)

/-- A RET after a CALL restores PC and SP; only the stack entry the CALL wrote differs. -/
def Obligations.ReturnUndoesCall : Prop :=
  ∀ (s : State) (nnn : Addr12), s.sp.val < 16 →
    ∃ t u, exec (.call nnn) s = .next t ∧ exec .ret t = .next u ∧
      u = { s with stack := u.stack } ∧ ∀ k : Fin 16, k.val ≠ s.sp.val → u.stack[k] = s.stack[k]

/-! ### Register and ALU -/

/-- R80, R82 to R85: load, copy, OR, AND, XOR write VX and nothing else; VF changes only as the destination. -/
def Obligations.MovesAndBitwiseWriteVx : Prop :=
  ∀ (s : State) (x y : Reg) (nn : Byte),
    EncodedAs (.ldImm x nn) (0x6000 + x.val * 0x100 + nn.toNat) ∧
    EncodedAs (.ldReg x y) (0x8000 + x.val * 0x100 + y.val * 0x10 + 0) ∧
    EncodedAs (.orReg x y) (0x8000 + x.val * 0x100 + y.val * 0x10 + 1) ∧
    EncodedAs (.andReg x y) (0x8000 + x.val * 0x100 + y.val * 0x10 + 2) ∧
    EncodedAs (.xorReg x y) (0x8000 + x.val * 0x100 + y.val * 0x10 + 3) ∧
    (Runs (.ldImm x nn) s fun t => SetsOnly s t x nn ∧ OnlyV s t) ∧
    (Runs (.ldReg x y) s fun t => SetsOnly s t x (s.getV y) ∧ OnlyV s t) ∧
    (Runs (.orReg x y) s fun t => SetsOnly s t x (s.getV x ||| s.getV y) ∧ OnlyV s t) ∧
    (Runs (.andReg x y) s fun t => SetsOnly s t x (s.getV x &&& s.getV y) ∧ OnlyV s t) ∧
    (Runs (.xorReg x y) s fun t => SetsOnly s t x (s.getV x ^^^ s.getV y) ∧ OnlyV s t)

/-- R81: the sum modulo 256, VF not written as a flag. -/
def Obligations.AddImmediateWrapsWithoutFlag : Prop :=
  ∀ (s : State) (x : Reg) (nn : Byte),
    EncodedAs (.addImm x nn) (0x7000 + x.val * 0x100 + nn.toNat) ∧
    Runs (.addImm x nn) s fun t =>
      (t.getV x).toNat = ((s.getV x).toNat + nn.toNat) % 256 ∧
        (∀ k : Reg, k ≠ x → t.getV k = s.getV k) ∧ OnlyV s t

/-- R86: the sum modulo 256 and the carry, the flag written last. -/
def Obligations.AddSetsCarryLast : Prop :=
  ∀ (s : State) (x y : Reg),
    EncodedAs (.addReg x y) (0x8000 + x.val * 0x100 + y.val * 0x10 + 4) ∧
    Runs (.addReg x y) s fun t =>
      SetsResultAndFlag s t x (((s.getV x).toNat + (s.getV y).toNat) % 256)
        (if (s.getV x).toNat + (s.getV y).toNat > 255 then 1 else 0) ∧ OnlyV s t

/-- R87: VX - VY modulo 256 and the not-borrow flag, written last; the difference is stated over the integers. -/
def Obligations.SubtractSetsNotBorrowLast : Prop :=
  ∀ (s : State) (x y : Reg),
    EncodedAs (.subReg x y) (0x8000 + x.val * 0x100 + y.val * 0x10 + 5) ∧
    Runs (.subReg x y) s fun t =>
      SetsResultAndFlag s t x ((((s.getV x).toNat : Int) - (s.getV y).toNat) % 256).toNat
        (if (s.getV x).toNat < (s.getV y).toNat then 0 else 1) ∧ OnlyV s t

/-- R89: VY - VX modulo 256 and the not-borrow flag. The spec marks its condition, VY < VX, as derived from the
subtraction and R87's borrow. -/
def Obligations.ReverseSubtractSetsNotBorrowLast : Prop :=
  ∀ (s : State) (x y : Reg),
    EncodedAs (.subnReg x y) (0x8000 + x.val * 0x100 + y.val * 0x10 + 7) ∧
    Runs (.subnReg x y) s fun t =>
      SetsResultAndFlag s t x ((((s.getV y).toNat : Int) - (s.getV x).toNat) % 256).toNat
        (if (s.getV y).toNat < (s.getV x).toNat then 0 else 1) ∧ OnlyV s t

/-- R88 and R90: the shifts by one of VX alone, whatever Y is, with the bit shifted out as the flag, written last. -/
def Obligations.ShiftsMoveVxAndSetTheBitShiftedOut : Prop :=
  ∀ (s : State) (x y : Reg),
    EncodedAs (.shr x y) (0x8000 + x.val * 0x100 + y.val * 0x10 + 6) ∧
    EncodedAs (.shl x y) (0x8000 + x.val * 0x100 + y.val * 0x10 + 14) ∧
    (Runs (.shr x y) s fun t =>
      SetsResultAndFlag s t x ((s.getV x).toNat / 2) ((s.getV x).toNat % 2) ∧ OnlyV s t) ∧
    (Runs (.shl x y) s fun t =>
      SetsResultAndFlag s t x ((s.getV x).toNat * 2 % 256) ((s.getV x).toNat / 128) ∧ OnlyV s t)

/-- R91: the draw of the STEP, masked by NN, to VX. How the draw reaches the instruction (`State.rnd`, or a free value
when the host names none) is the model's form (log 2): here the draw named by the host, and some byte otherwise. -/
def Obligations.RandomByteIsMaskedIntoVx : Prop :=
  ∀ (s : State) (x : Reg) (nn : Byte),
    EncodedAs (.rnd x nn) (0xC000 + x.val * 0x100 + nn.toNat) ∧
    Runs (.rnd x nn) s fun t =>
      (∀ r : Byte, s.rnd = some r → t.getV x = r &&& nn) ∧ (∃ r : Byte, t.getV x = r &&& nn) ∧
      (∀ k : Reg, k ≠ x → t.getV k = s.getV k) ∧
      t = { s with v := t.v, draws := t.draws } ∧ SameMemory s t

/-! ### Index register and memory -/

/-- R92, R93, R94: I loaded, added to modulo 65536 with no flag, and pointed at VX * 5 without a mask. -/
def Obligations.IndexInstructionsSetI : Prop :=
  ∀ (s : State) (x : Reg) (nnn : Addr12),
    EncodedAs (.ldI nnn) (0xA000 + nnn.toNat) ∧ EncodedAs (.addI x) (0xF000 + x.val * 0x100 + 0x1E) ∧
    EncodedAs (.ldF x) (0xF000 + x.val * 0x100 + 0x29) ∧
    (Runs (.ldI nnn) s fun t => t.i.toNat = nnn.toNat ∧ OnlyI s t) ∧
    (Runs (.addI x) s fun t => t.i.toNat = (s.i.toNat + (s.getV x).toNat) % 65536 ∧ OnlyI s t) ∧
    (Runs (.ldF x) s fun t => t.i.toNat = (s.getV x).toNat * 5 ∧ OnlyI s t)

/-- R95: the three decimal digits at I, I + 1, I + 2, or the fault before any write. -/
def Obligations.BcdStoresThreeDigits : Prop :=
  ∀ (s : State) (x : Reg),
    EncodedAs (.ldB x) (0xF000 + x.val * 0x100 + 0x33) ∧
    (s.i.toNat + 2 ≤ 0xFFF → Runs (.ldB x) s fun t =>
      (t.readByte s.i.toNat).toNat = (s.getV x).toNat / 100 ∧
      (t.readByte (s.i.toNat + 1)).toNat = (s.getV x).toNat / 10 % 10 ∧
      (t.readByte (s.i.toNat + 2)).toNat = (s.getV x).toNat % 10 ∧
      (∀ a : Nat, a < s.i.toNat ∨ s.i.toNat + 2 < a → t.readByte a = s.readByte a) ∧
      t = { s with mem := t.mem }) ∧
    (s.i.toNat + 2 > 0xFFF → Faults (.ldB x) s .memoryOutOfBounds (max s.i.toNat 0x1000))

/-- R96: V0..VX to memory from I up, I unchanged, or the fault before any write. -/
def Obligations.StoreWritesV0ToVx : Prop :=
  ∀ (s : State) (x : Reg),
    EncodedAs (.storeRegs x) (0xF000 + x.val * 0x100 + 0x55) ∧
    (s.i.toNat + x.val ≤ 0xFFF → Runs (.storeRegs x) s fun t =>
      (∀ k : Reg, k ≤ x → t.readByte (s.i.toNat + k.val) = s.getV k) ∧
      (∀ a : Nat, a < s.i.toNat ∨ s.i.toNat + x.val < a → t.readByte a = s.readByte a) ∧
      t = { s with mem := t.mem }) ∧
    (s.i.toNat + x.val > 0xFFF → Faults (.storeRegs x) s .memoryOutOfBounds (max s.i.toNat 0x1000))

/-- R97: V0..VX from memory from I up, I unchanged, or the fault before any register write. -/
def Obligations.LoadReadsV0ToVx : Prop :=
  ∀ (s : State) (x : Reg),
    EncodedAs (.loadRegs x) (0xF000 + x.val * 0x100 + 0x65) ∧
    (s.i.toNat + x.val ≤ 0xFFF → Runs (.loadRegs x) s fun t =>
      (∀ k : Reg, k ≤ x → t.getV k = s.readByte (s.i.toNat + k.val)) ∧
      (∀ k : Reg, x < k → t.getV k = s.getV k) ∧ OnlyV s t) ∧
    (s.i.toNat + x.val > 0xFFF → Faults (.loadRegs x) s .memoryOutOfBounds (max s.i.toNat 0x1000))

/-- `FX65` after `FX55` with the same X and I brings V0..VX back, whatever the registers hold in between. -/
def Obligations.LoadAfterStoreBringsRegistersBack : Prop :=
  ∀ (s : State) (x : Reg) (w : Vector Byte 16), s.i.toNat + x.val ≤ 0xFFF →
    ∃ t u, exec (.storeRegs x) s = .next t ∧ exec (.loadRegs x) { t with v := w } = .next u ∧
      (∀ k : Reg, k ≤ x → u.getV k = s.getV k) ∧ (∀ k : Reg, x < k → u.getV k = w[k]) ∧
      u = { t with v := u.v }

/-- The fetch sees what `FX55` has just stored: two stored registers are the next opcode (20_memory.md R51, marked
derived by the spec). -/
def Obligations.StoredCodeIsFetched : Prop :=
  ∀ (s : State) (x k k' : Reg), s.i.toNat + x.val ≤ 0xFFF → k' ≤ x → k'.val = k.val + 1 →
    s.pc.toNat = s.i.toNat + k.val →
    ∃ t u, exec (.storeRegs x) s = .next t ∧
      fetch t = .ok (BitVec.ofNat 16 ((s.getV k).toNat * 256 + (s.getV k').toNat), u)

/-! ### Display -/

/-- R98: every pixel OFF, nothing else changed. -/
def Obligations.ClearTurnsEveryPixelOff : Prop :=
  EncodedAs .cls 0x00E0 ∧
  ∀ s : State, Runs .cls s fun t =>
    (∀ (px : Fin 64) (py : Fin 32), t.disp.pixel px py = false) ∧
    t = { s with disp := t.disp } ∧ SameMemory s t

/-- R100: the sprite XORed onto the display, pixel by pixel; VF, written last, says whether a pixel went from ON to
OFF; a sprite outside memory faults before any change. For N = 0 nothing is drawn and VF := 0, as the pseudocode of
R100 gives and the spec's derived sentence repeats. -/
def Obligations.DrawXorsTheSprite : Prop :=
  ∀ (s : State) (x y : Reg) (n : Nat), n ≤ 15 →
    EncodedAs (.drw x y n) (0xD000 + x.val * 0x100 + y.val * 0x10 + n) ∧
    (n = 0 ∨ s.i.toNat + n - 1 ≤ 0xFFF → Runs (.drw x y n) s fun t =>
      (∀ (px : Fin 64) (py : Fin 32),
        (SpriteOn s x y n px py → t.disp.pixel px py = !s.disp.pixel px py) ∧
        (¬ SpriteOn s x y n px py → t.disp.pixel px py = s.disp.pixel px py)) ∧
      ((∃ px py, s.disp.pixel px py = true ∧ t.disp.pixel px py = false) → t.getV 15 = 1) ∧
      ((¬ ∃ px py, s.disp.pixel px py = true ∧ t.disp.pixel px py = false) → t.getV 15 = 0) ∧
      (∀ k : Reg, k ≠ 15 → t.getV k = s.getV k) ∧
      t = { s with disp := t.disp, v := t.v } ∧ SameMemory s t) ∧
    (1 ≤ n → s.i.toNat + n - 1 > 0xFFF → Faults (.drw x y n) s .memoryOutOfBounds (max s.i.toNat 0x1000))

/-- Drawing the same sprite twice restores the display, and the second VF is 1 exactly when the sprite has a set bit
on a pixel that was OFF at first (95_test_vectors.md W5). -/
def Obligations.DrawTwiceRestoresTheDisplay : Prop :=
  ∀ (s : State) (x y : Reg) (n : Nat), n ≤ 15 → x ≠ 15 → y ≠ 15 → n = 0 ∨ s.i.toNat + n - 1 ≤ 0xFFF →
    ∃ t u, exec (.drw x y n) s = .next t ∧ exec (.drw x y n) t = .next u ∧
      (∀ (px : Fin 64) (py : Fin 32), u.disp.pixel px py = s.disp.pixel px py) ∧
      (u.getV 15 = 1 ↔ ∃ px py, SpriteOn s x y n px py ∧ s.disp.pixel px py = false)

/-! ### Keypad and timers -/

/-- R102 and R103: skip on the state of the key numbered VX; an index above 15 faults. -/
def Obligations.KeySkipsReadOneKey : Prop :=
  ∀ (s : State) (x : Reg),
    EncodedAs (.skp x) (0xE000 + x.val * 0x100 + 0x9E) ∧ EncodedAs (.sknp x) (0xE000 + x.val * 0x100 + 0xA1) ∧
    (∀ k : Fin 16, (s.getV x).toNat = k.val →
      (Runs (.skp x) s fun t => OnlyPc s t ∧ t.pc = if s.key[k] then s.pc + 2 else s.pc) ∧
      (Runs (.sknp x) s fun t => OnlyPc s t ∧ t.pc = if s.key[k] then s.pc else s.pc + 2)) ∧
    ((s.getV x).toNat > 15 →
      Faults (.skp x) s .keyIndexOutOfRange (s.getV x).toNat ∧
      Faults (.sknp x) s .keyIndexOutOfRange (s.getV x).toNat)

/-- R104 and R106: `FX07` copies DT to VX, `FX15` copies VX to ST, and nothing else changes. -/
def Obligations.TimerMovesCopyOneByte : Prop :=
  ∀ (s : State) (x : Reg),
    EncodedAs (.ldVxDt x) (0xF000 + x.val * 0x100 + 0x07) ∧
    EncodedAs (.ldStVx x) (0xF000 + x.val * 0x100 + 0x15) ∧
    (Runs (.ldVxDt x) s fun t => SetsOnly s t x s.dt ∧ OnlyV s t) ∧
    (Runs (.ldStVx x) s fun t => t.st = s.getV x ∧ t = { s with st := t.st } ∧ SameMemory s t)

/-- R105: with a key pressed, the lowest goes to VX and PC stays past the instruction; with none, PC goes back to the
instruction, and the whole tick changes nothing. -/
def Obligations.KeyWaitTakesTheLowestKey : Prop :=
  ∀ (s : State) (x : Reg),
    EncodedAs (.ldVxK x) (0xF000 + x.val * 0x100 + 0x0A) ∧
    (∀ k : Fin 16, s.key[k] = true → (∀ j : Fin 16, j < k → s.key[j] = false) → Runs (.ldVxK x) s fun t =>
      (t.getV x).toNat = k.val ∧ (∀ r : Reg, r ≠ x → t.getV r = s.getV r) ∧ OnlyV s t) ∧
    ((∀ k : Fin 16, s.key[k] = false) →
      (Runs (.ldVxK x) s fun t => t.pc = s.pc - 2 ∧ OnlyPc s t) ∧
      (s.fault = none → s.pc.toNat ≤ 0xFFE → decodeWord (s.wordAt s.pc.toNat) = some (.ldVxK x) →
        tick s = .next s))

/-! ### Rules of the whole machine -/

/-- R17 and R16 (R17 is marked derived by the spec): a register changes only by an instruction that names it as a
destination, loads it, or writes VF as a flag. -/
def Obligations.OnlyListedInstructionsWriteRegisters : Prop :=
  ∀ (ins : Instr) (s t : State) (k : Reg), exec ins s = .next t → t.getV k ≠ s.getV k → writesReg ins s k

/-- Who may change each component (10_state.md R18, R20 to R25, 20_memory.md R33): memory only `FX33` and `FX55`; the
stack and SP only `2NNN` and `00EE`; I only `ANNN`, `FX1E`, `FX29`; ST only `FX15`; the display only `00E0` and `DXYN`;
DT, the keys, the font and the host's commands no instruction; and PC, where no fault is taken, only the listed ones. -/
def Obligations.EachComponentHasItsWriters : Prop :=
  ∀ (ins : Instr) (s t : State), exec ins s = .next t →
    (t.dt = s.dt ∧ t.key = s.key ∧ t.font = s.font ∧ t.inbox = s.inbox ∧ t.rnd = s.rnd ∧ t.reply = s.reply) ∧
    ((∃ a, t.readByte a ≠ s.readByte a) → (∃ x, ins = .ldB x) ∨ ∃ x, ins = .storeRegs x) ∧
    (t.stack ≠ s.stack → ∃ nnn, ins = .call nnn) ∧
    (t.sp ≠ s.sp → (∃ nnn, ins = .call nnn) ∨ ins = .ret) ∧
    (t.i ≠ s.i → (∃ nnn, ins = .ldI nnn) ∨ (∃ x, ins = .addI x) ∨ ∃ x, ins = .ldF x) ∧
    (t.st ≠ s.st → ∃ x, ins = .ldStVx x) ∧
    (t.disp ≠ s.disp → ins = .cls ∨ ∃ x y n, ins = .drw x y n) ∧
    (t.draws ≠ s.draws → ∃ x nn, ins = .rnd x nn) ∧
    (t.fault = none → t.pc ≠ s.pc → writesPc ins = true)

/-- The random byte reaches no instruction but `CXNN` (60_exceptions.md R121: "`rnd` is read only by `CXNN`"). The
fields are the model's form of it (log 2). -/
def Obligations.RandomByteReachesOnlyRnd : Prop :=
  ∀ (ins : Instr) (s t : State) (r : Option Byte) (d : Nat), (∀ x nn, ins ≠ .rnd x nn) →
    exec ins s = .next t → exec ins { s with rnd := r, draws := d } = .next { t with rnd := r, draws := d }

/-- ST is read by no instruction (10_state.md R23): two runs that differ only in ST agree on everything but ST. -/
def Obligations.NoInstructionReadsSt : Prop :=
  ∀ (ins : Instr) (s t : State) (b : Byte), exec ins s = .next t →
    ∃ t', exec ins { s with st := b } = .next t' ∧ { t' with st := t.st } = t

/-- A parked machine stays as it is under every STEP (70_reset_and_hazards.md R144). -/
def Obligations.ParkedMachineStays : Prop :=
  ∀ s : State, s.Parked → tick s = .next s
end

