-- ==== Sys2Proof/Laws/State.lean ====
section
/-!
SUPPORT. Every field after every setter: the record updates of the model, unfolded once. And the per-field lemmas of the
other updates of a state: a drawn byte consumed, a fault taken, a command taken.
-/

namespace Sys2Proof.Machine

@[simp] theorem State.setV_mem (s : State) (x : Reg) (b : Byte) : (s.setV x b).mem = s.mem := rfl
@[simp] theorem State.setV_v (s : State) (x : Reg) (b : Byte) : (s.setV x b).v = s.v.set x.val b x.isLt := rfl
@[simp] theorem State.setV_pc (s : State) (x : Reg) (b : Byte) : (s.setV x b).pc = s.pc := rfl
@[simp] theorem State.setV_i (s : State) (x : Reg) (b : Byte) : (s.setV x b).i = s.i := rfl
@[simp] theorem State.setV_stack (s : State) (x : Reg) (b : Byte) : (s.setV x b).stack = s.stack := rfl
@[simp] theorem State.setV_sp (s : State) (x : Reg) (b : Byte) : (s.setV x b).sp = s.sp := rfl
@[simp] theorem State.setV_dt (s : State) (x : Reg) (b : Byte) : (s.setV x b).dt = s.dt := rfl
@[simp] theorem State.setV_st (s : State) (x : Reg) (b : Byte) : (s.setV x b).st = s.st := rfl
@[simp] theorem State.setV_disp (s : State) (x : Reg) (b : Byte) : (s.setV x b).disp = s.disp := rfl
@[simp] theorem State.setV_key (s : State) (x : Reg) (b : Byte) : (s.setV x b).key = s.key := rfl
@[simp] theorem State.setV_fault (s : State) (x : Reg) (b : Byte) : (s.setV x b).fault = s.fault := rfl
@[simp] theorem State.setV_font (s : State) (x : Reg) (b : Byte) : (s.setV x b).font = s.font := rfl
@[simp] theorem State.setV_inbox (s : State) (x : Reg) (b : Byte) : (s.setV x b).inbox = s.inbox := rfl
@[simp] theorem State.setV_rnd (s : State) (x : Reg) (b : Byte) : (s.setV x b).rnd = s.rnd := rfl
@[simp] theorem State.setV_draws (s : State) (x : Reg) (b : Byte) : (s.setV x b).draws = s.draws := rfl
@[simp] theorem State.setV_reply (s : State) (x : Reg) (b : Byte) : (s.setV x b).reply = s.reply := rfl

@[simp] theorem State.setPc_mem (s : State) (a : Word) : (s.setPc a).mem = s.mem := rfl
@[simp] theorem State.setPc_v (s : State) (a : Word) : (s.setPc a).v = s.v := rfl
@[simp] theorem State.setPc_pc (s : State) (a : Word) : (s.setPc a).pc = a := rfl
@[simp] theorem State.setPc_i (s : State) (a : Word) : (s.setPc a).i = s.i := rfl
@[simp] theorem State.setPc_stack (s : State) (a : Word) : (s.setPc a).stack = s.stack := rfl
@[simp] theorem State.setPc_sp (s : State) (a : Word) : (s.setPc a).sp = s.sp := rfl
@[simp] theorem State.setPc_dt (s : State) (a : Word) : (s.setPc a).dt = s.dt := rfl
@[simp] theorem State.setPc_st (s : State) (a : Word) : (s.setPc a).st = s.st := rfl
@[simp] theorem State.setPc_disp (s : State) (a : Word) : (s.setPc a).disp = s.disp := rfl
@[simp] theorem State.setPc_key (s : State) (a : Word) : (s.setPc a).key = s.key := rfl
@[simp] theorem State.setPc_fault (s : State) (a : Word) : (s.setPc a).fault = s.fault := rfl
@[simp] theorem State.setPc_font (s : State) (a : Word) : (s.setPc a).font = s.font := rfl
@[simp] theorem State.setPc_inbox (s : State) (a : Word) : (s.setPc a).inbox = s.inbox := rfl
@[simp] theorem State.setPc_rnd (s : State) (a : Word) : (s.setPc a).rnd = s.rnd := rfl
@[simp] theorem State.setPc_draws (s : State) (a : Word) : (s.setPc a).draws = s.draws := rfl
@[simp] theorem State.setPc_reply (s : State) (a : Word) : (s.setPc a).reply = s.reply := rfl

@[simp] theorem State.setI_mem (s : State) (a : Word) : (s.setI a).mem = s.mem := rfl
@[simp] theorem State.setI_v (s : State) (a : Word) : (s.setI a).v = s.v := rfl
@[simp] theorem State.setI_pc (s : State) (a : Word) : (s.setI a).pc = s.pc := rfl
@[simp] theorem State.setI_i (s : State) (a : Word) : (s.setI a).i = a := rfl
@[simp] theorem State.setI_stack (s : State) (a : Word) : (s.setI a).stack = s.stack := rfl
@[simp] theorem State.setI_sp (s : State) (a : Word) : (s.setI a).sp = s.sp := rfl
@[simp] theorem State.setI_dt (s : State) (a : Word) : (s.setI a).dt = s.dt := rfl
@[simp] theorem State.setI_st (s : State) (a : Word) : (s.setI a).st = s.st := rfl
@[simp] theorem State.setI_disp (s : State) (a : Word) : (s.setI a).disp = s.disp := rfl
@[simp] theorem State.setI_key (s : State) (a : Word) : (s.setI a).key = s.key := rfl
@[simp] theorem State.setI_fault (s : State) (a : Word) : (s.setI a).fault = s.fault := rfl
@[simp] theorem State.setI_font (s : State) (a : Word) : (s.setI a).font = s.font := rfl
@[simp] theorem State.setI_inbox (s : State) (a : Word) : (s.setI a).inbox = s.inbox := rfl
@[simp] theorem State.setI_rnd (s : State) (a : Word) : (s.setI a).rnd = s.rnd := rfl
@[simp] theorem State.setI_draws (s : State) (a : Word) : (s.setI a).draws = s.draws := rfl
@[simp] theorem State.setI_reply (s : State) (a : Word) : (s.setI a).reply = s.reply := rfl

@[simp] theorem State.setSt_mem (s : State) (b : Byte) : (s.setSt b).mem = s.mem := rfl
@[simp] theorem State.setSt_v (s : State) (b : Byte) : (s.setSt b).v = s.v := rfl
@[simp] theorem State.setSt_pc (s : State) (b : Byte) : (s.setSt b).pc = s.pc := rfl
@[simp] theorem State.setSt_i (s : State) (b : Byte) : (s.setSt b).i = s.i := rfl
@[simp] theorem State.setSt_stack (s : State) (b : Byte) : (s.setSt b).stack = s.stack := rfl
@[simp] theorem State.setSt_sp (s : State) (b : Byte) : (s.setSt b).sp = s.sp := rfl
@[simp] theorem State.setSt_dt (s : State) (b : Byte) : (s.setSt b).dt = s.dt := rfl
@[simp] theorem State.setSt_st (s : State) (b : Byte) : (s.setSt b).st = b := rfl
@[simp] theorem State.setSt_disp (s : State) (b : Byte) : (s.setSt b).disp = s.disp := rfl
@[simp] theorem State.setSt_key (s : State) (b : Byte) : (s.setSt b).key = s.key := rfl
@[simp] theorem State.setSt_fault (s : State) (b : Byte) : (s.setSt b).fault = s.fault := rfl
@[simp] theorem State.setSt_font (s : State) (b : Byte) : (s.setSt b).font = s.font := rfl
@[simp] theorem State.setSt_inbox (s : State) (b : Byte) : (s.setSt b).inbox = s.inbox := rfl
@[simp] theorem State.setSt_rnd (s : State) (b : Byte) : (s.setSt b).rnd = s.rnd := rfl
@[simp] theorem State.setSt_draws (s : State) (b : Byte) : (s.setSt b).draws = s.draws := rfl
@[simp] theorem State.setSt_reply (s : State) (b : Byte) : (s.setSt b).reply = s.reply := rfl

@[simp] theorem State.setDt_mem (s : State) (b : Byte) : (s.setDt b).mem = s.mem := rfl
@[simp] theorem State.setDt_v (s : State) (b : Byte) : (s.setDt b).v = s.v := rfl
@[simp] theorem State.setDt_pc (s : State) (b : Byte) : (s.setDt b).pc = s.pc := rfl
@[simp] theorem State.setDt_i (s : State) (b : Byte) : (s.setDt b).i = s.i := rfl
@[simp] theorem State.setDt_stack (s : State) (b : Byte) : (s.setDt b).stack = s.stack := rfl
@[simp] theorem State.setDt_sp (s : State) (b : Byte) : (s.setDt b).sp = s.sp := rfl
@[simp] theorem State.setDt_dt (s : State) (b : Byte) : (s.setDt b).dt = b := rfl
@[simp] theorem State.setDt_st (s : State) (b : Byte) : (s.setDt b).st = s.st := rfl
@[simp] theorem State.setDt_disp (s : State) (b : Byte) : (s.setDt b).disp = s.disp := rfl
@[simp] theorem State.setDt_key (s : State) (b : Byte) : (s.setDt b).key = s.key := rfl
@[simp] theorem State.setDt_fault (s : State) (b : Byte) : (s.setDt b).fault = s.fault := rfl
@[simp] theorem State.setDt_font (s : State) (b : Byte) : (s.setDt b).font = s.font := rfl
@[simp] theorem State.setDt_inbox (s : State) (b : Byte) : (s.setDt b).inbox = s.inbox := rfl
@[simp] theorem State.setDt_rnd (s : State) (b : Byte) : (s.setDt b).rnd = s.rnd := rfl
@[simp] theorem State.setDt_draws (s : State) (b : Byte) : (s.setDt b).draws = s.draws := rfl
@[simp] theorem State.setDt_reply (s : State) (b : Byte) : (s.setDt b).reply = s.reply := rfl

@[simp] theorem State.setDisp_mem (s : State) (d : Screen) : (s.setDisp d).mem = s.mem := rfl
@[simp] theorem State.setDisp_v (s : State) (d : Screen) : (s.setDisp d).v = s.v := rfl
@[simp] theorem State.setDisp_pc (s : State) (d : Screen) : (s.setDisp d).pc = s.pc := rfl
@[simp] theorem State.setDisp_i (s : State) (d : Screen) : (s.setDisp d).i = s.i := rfl
@[simp] theorem State.setDisp_stack (s : State) (d : Screen) : (s.setDisp d).stack = s.stack := rfl
@[simp] theorem State.setDisp_sp (s : State) (d : Screen) : (s.setDisp d).sp = s.sp := rfl
@[simp] theorem State.setDisp_dt (s : State) (d : Screen) : (s.setDisp d).dt = s.dt := rfl
@[simp] theorem State.setDisp_st (s : State) (d : Screen) : (s.setDisp d).st = s.st := rfl
@[simp] theorem State.setDisp_disp (s : State) (d : Screen) : (s.setDisp d).disp = d := rfl
@[simp] theorem State.setDisp_key (s : State) (d : Screen) : (s.setDisp d).key = s.key := rfl
@[simp] theorem State.setDisp_fault (s : State) (d : Screen) : (s.setDisp d).fault = s.fault := rfl
@[simp] theorem State.setDisp_font (s : State) (d : Screen) : (s.setDisp d).font = s.font := rfl
@[simp] theorem State.setDisp_inbox (s : State) (d : Screen) : (s.setDisp d).inbox = s.inbox := rfl
@[simp] theorem State.setDisp_rnd (s : State) (d : Screen) : (s.setDisp d).rnd = s.rnd := rfl
@[simp] theorem State.setDisp_draws (s : State) (d : Screen) : (s.setDisp d).draws = s.draws := rfl
@[simp] theorem State.setDisp_reply (s : State) (d : Screen) : (s.setDisp d).reply = s.reply := rfl

@[simp] theorem State.setKey_mem (s : State) (k : Fin 16) (p : Bool) : (s.setKey k p).mem = s.mem := rfl
@[simp] theorem State.setKey_v (s : State) (k : Fin 16) (p : Bool) : (s.setKey k p).v = s.v := rfl
@[simp] theorem State.setKey_pc (s : State) (k : Fin 16) (p : Bool) : (s.setKey k p).pc = s.pc := rfl
@[simp] theorem State.setKey_i (s : State) (k : Fin 16) (p : Bool) : (s.setKey k p).i = s.i := rfl
@[simp] theorem State.setKey_stack (s : State) (k : Fin 16) (p : Bool) : (s.setKey k p).stack = s.stack := rfl
@[simp] theorem State.setKey_sp (s : State) (k : Fin 16) (p : Bool) : (s.setKey k p).sp = s.sp := rfl
@[simp] theorem State.setKey_dt (s : State) (k : Fin 16) (p : Bool) : (s.setKey k p).dt = s.dt := rfl
@[simp] theorem State.setKey_st (s : State) (k : Fin 16) (p : Bool) : (s.setKey k p).st = s.st := rfl
@[simp] theorem State.setKey_disp (s : State) (k : Fin 16) (p : Bool) : (s.setKey k p).disp = s.disp := rfl
@[simp] theorem State.setKey_key (s : State) (k : Fin 16) (p : Bool) : (s.setKey k p).key = s.key.set k.val p k.isLt := rfl
@[simp] theorem State.setKey_fault (s : State) (k : Fin 16) (p : Bool) : (s.setKey k p).fault = s.fault := rfl
@[simp] theorem State.setKey_font (s : State) (k : Fin 16) (p : Bool) : (s.setKey k p).font = s.font := rfl
@[simp] theorem State.setKey_inbox (s : State) (k : Fin 16) (p : Bool) : (s.setKey k p).inbox = s.inbox := rfl
@[simp] theorem State.setKey_rnd (s : State) (k : Fin 16) (p : Bool) : (s.setKey k p).rnd = s.rnd := rfl
@[simp] theorem State.setKey_draws (s : State) (k : Fin 16) (p : Bool) : (s.setKey k p).draws = s.draws := rfl
@[simp] theorem State.setKey_reply (s : State) (k : Fin 16) (p : Bool) : (s.setKey k p).reply = s.reply := rfl

@[simp] theorem State.setVs_mem (s : State) (w : Vector Byte 16) : (s.setVs w).mem = s.mem := rfl
@[simp] theorem State.setVs_v (s : State) (w : Vector Byte 16) : (s.setVs w).v = w := rfl
@[simp] theorem State.setVs_pc (s : State) (w : Vector Byte 16) : (s.setVs w).pc = s.pc := rfl
@[simp] theorem State.setVs_i (s : State) (w : Vector Byte 16) : (s.setVs w).i = s.i := rfl
@[simp] theorem State.setVs_stack (s : State) (w : Vector Byte 16) : (s.setVs w).stack = s.stack := rfl
@[simp] theorem State.setVs_sp (s : State) (w : Vector Byte 16) : (s.setVs w).sp = s.sp := rfl
@[simp] theorem State.setVs_dt (s : State) (w : Vector Byte 16) : (s.setVs w).dt = s.dt := rfl
@[simp] theorem State.setVs_st (s : State) (w : Vector Byte 16) : (s.setVs w).st = s.st := rfl
@[simp] theorem State.setVs_disp (s : State) (w : Vector Byte 16) : (s.setVs w).disp = s.disp := rfl
@[simp] theorem State.setVs_key (s : State) (w : Vector Byte 16) : (s.setVs w).key = s.key := rfl
@[simp] theorem State.setVs_fault (s : State) (w : Vector Byte 16) : (s.setVs w).fault = s.fault := rfl
@[simp] theorem State.setVs_font (s : State) (w : Vector Byte 16) : (s.setVs w).font = s.font := rfl
@[simp] theorem State.setVs_inbox (s : State) (w : Vector Byte 16) : (s.setVs w).inbox = s.inbox := rfl
@[simp] theorem State.setVs_rnd (s : State) (w : Vector Byte 16) : (s.setVs w).rnd = s.rnd := rfl
@[simp] theorem State.setVs_draws (s : State) (w : Vector Byte 16) : (s.setVs w).draws = s.draws := rfl
@[simp] theorem State.setVs_reply (s : State) (w : Vector Byte 16) : (s.setVs w).reply = s.reply := rfl

@[simp] theorem State.setMem_mem (s : State) (m : List Host.Cell) : (s.setMem m).mem = m := rfl
@[simp] theorem State.setMem_v (s : State) (m : List Host.Cell) : (s.setMem m).v = s.v := rfl
@[simp] theorem State.setMem_pc (s : State) (m : List Host.Cell) : (s.setMem m).pc = s.pc := rfl
@[simp] theorem State.setMem_i (s : State) (m : List Host.Cell) : (s.setMem m).i = s.i := rfl
@[simp] theorem State.setMem_stack (s : State) (m : List Host.Cell) : (s.setMem m).stack = s.stack := rfl
@[simp] theorem State.setMem_sp (s : State) (m : List Host.Cell) : (s.setMem m).sp = s.sp := rfl
@[simp] theorem State.setMem_dt (s : State) (m : List Host.Cell) : (s.setMem m).dt = s.dt := rfl
@[simp] theorem State.setMem_st (s : State) (m : List Host.Cell) : (s.setMem m).st = s.st := rfl
@[simp] theorem State.setMem_disp (s : State) (m : List Host.Cell) : (s.setMem m).disp = s.disp := rfl
@[simp] theorem State.setMem_key (s : State) (m : List Host.Cell) : (s.setMem m).key = s.key := rfl
@[simp] theorem State.setMem_fault (s : State) (m : List Host.Cell) : (s.setMem m).fault = s.fault := rfl
@[simp] theorem State.setMem_font (s : State) (m : List Host.Cell) : (s.setMem m).font = s.font := rfl
@[simp] theorem State.setMem_inbox (s : State) (m : List Host.Cell) : (s.setMem m).inbox = s.inbox := rfl
@[simp] theorem State.setMem_rnd (s : State) (m : List Host.Cell) : (s.setMem m).rnd = s.rnd := rfl
@[simp] theorem State.setMem_draws (s : State) (m : List Host.Cell) : (s.setMem m).draws = s.draws := rfl
@[simp] theorem State.setMem_reply (s : State) (m : List Host.Cell) : (s.setMem m).reply = s.reply := rfl

@[simp] theorem State.setReply_mem (s : State) (r : Reply) : (s.setReply r).mem = s.mem := rfl
@[simp] theorem State.setReply_v (s : State) (r : Reply) : (s.setReply r).v = s.v := rfl
@[simp] theorem State.setReply_pc (s : State) (r : Reply) : (s.setReply r).pc = s.pc := rfl
@[simp] theorem State.setReply_i (s : State) (r : Reply) : (s.setReply r).i = s.i := rfl
@[simp] theorem State.setReply_stack (s : State) (r : Reply) : (s.setReply r).stack = s.stack := rfl
@[simp] theorem State.setReply_sp (s : State) (r : Reply) : (s.setReply r).sp = s.sp := rfl
@[simp] theorem State.setReply_dt (s : State) (r : Reply) : (s.setReply r).dt = s.dt := rfl
@[simp] theorem State.setReply_st (s : State) (r : Reply) : (s.setReply r).st = s.st := rfl
@[simp] theorem State.setReply_disp (s : State) (r : Reply) : (s.setReply r).disp = s.disp := rfl
@[simp] theorem State.setReply_key (s : State) (r : Reply) : (s.setReply r).key = s.key := rfl
@[simp] theorem State.setReply_fault (s : State) (r : Reply) : (s.setReply r).fault = s.fault := rfl
@[simp] theorem State.setReply_font (s : State) (r : Reply) : (s.setReply r).font = s.font := rfl
@[simp] theorem State.setReply_inbox (s : State) (r : Reply) : (s.setReply r).inbox = s.inbox := rfl
@[simp] theorem State.setReply_rnd (s : State) (r : Reply) : (s.setReply r).rnd = s.rnd := rfl
@[simp] theorem State.setReply_draws (s : State) (r : Reply) : (s.setReply r).draws = s.draws := rfl
@[simp] theorem State.setReply_reply (s : State) (r : Reply) : (s.setReply r).reply = r := rfl

@[simp] theorem State.consumeDraw_mem (s : State) : (s.consumeDraw).mem = s.mem := rfl
@[simp] theorem State.consumeDraw_v (s : State) : (s.consumeDraw).v = s.v := rfl
@[simp] theorem State.consumeDraw_pc (s : State) : (s.consumeDraw).pc = s.pc := rfl
@[simp] theorem State.consumeDraw_i (s : State) : (s.consumeDraw).i = s.i := rfl
@[simp] theorem State.consumeDraw_stack (s : State) : (s.consumeDraw).stack = s.stack := rfl
@[simp] theorem State.consumeDraw_sp (s : State) : (s.consumeDraw).sp = s.sp := rfl
@[simp] theorem State.consumeDraw_dt (s : State) : (s.consumeDraw).dt = s.dt := rfl
@[simp] theorem State.consumeDraw_st (s : State) : (s.consumeDraw).st = s.st := rfl
@[simp] theorem State.consumeDraw_disp (s : State) : (s.consumeDraw).disp = s.disp := rfl
@[simp] theorem State.consumeDraw_key (s : State) : (s.consumeDraw).key = s.key := rfl
@[simp] theorem State.consumeDraw_fault (s : State) : (s.consumeDraw).fault = s.fault := rfl
@[simp] theorem State.consumeDraw_font (s : State) : (s.consumeDraw).font = s.font := rfl
@[simp] theorem State.consumeDraw_inbox (s : State) : (s.consumeDraw).inbox = s.inbox := rfl
@[simp] theorem State.consumeDraw_rnd (s : State) : (s.consumeDraw).rnd = s.rnd := rfl
@[simp] theorem State.consumeDraw_draws (s : State) : (s.consumeDraw).draws = s.draws + 1 := rfl
@[simp] theorem State.consumeDraw_reply (s : State) : (s.consumeDraw).reply = s.reply := rfl

@[simp] theorem State.raise_mem (s : State) (a op : Word) (m : MachineFault) : (s.raise a op m).mem = s.mem := rfl
@[simp] theorem State.raise_v (s : State) (a op : Word) (m : MachineFault) : (s.raise a op m).v = s.v := rfl
@[simp] theorem State.raise_pc (s : State) (a op : Word) (m : MachineFault) : (s.raise a op m).pc = a := rfl
@[simp] theorem State.raise_i (s : State) (a op : Word) (m : MachineFault) : (s.raise a op m).i = s.i := rfl
@[simp] theorem State.raise_stack (s : State) (a op : Word) (m : MachineFault) : (s.raise a op m).stack = s.stack := rfl
@[simp] theorem State.raise_sp (s : State) (a op : Word) (m : MachineFault) : (s.raise a op m).sp = s.sp := rfl
@[simp] theorem State.raise_dt (s : State) (a op : Word) (m : MachineFault) : (s.raise a op m).dt = s.dt := rfl
@[simp] theorem State.raise_st (s : State) (a op : Word) (m : MachineFault) : (s.raise a op m).st = s.st := rfl
@[simp] theorem State.raise_disp (s : State) (a op : Word) (m : MachineFault) : (s.raise a op m).disp = s.disp := rfl
@[simp] theorem State.raise_key (s : State) (a op : Word) (m : MachineFault) : (s.raise a op m).key = s.key := rfl
@[simp] theorem State.raise_fault (s : State) (a op : Word) (m : MachineFault) : (s.raise a op m).fault = some ⟨m.kind, a, op, m.addr⟩ := rfl
@[simp] theorem State.raise_font (s : State) (a op : Word) (m : MachineFault) : (s.raise a op m).font = s.font := rfl
@[simp] theorem State.raise_inbox (s : State) (a op : Word) (m : MachineFault) : (s.raise a op m).inbox = s.inbox := rfl
@[simp] theorem State.raise_rnd (s : State) (a op : Word) (m : MachineFault) : (s.raise a op m).rnd = s.rnd := rfl
@[simp] theorem State.raise_draws (s : State) (a op : Word) (m : MachineFault) : (s.raise a op m).draws = s.draws := rfl
@[simp] theorem State.raise_reply (s : State) (a op : Word) (m : MachineFault) : (s.raise a op m).reply = s.reply := rfl

@[simp] theorem State.take_mem (s : State) (rest : List Command) (r : Option Byte) : (s.take rest r).mem = s.mem := rfl
@[simp] theorem State.take_v (s : State) (rest : List Command) (r : Option Byte) : (s.take rest r).v = s.v := rfl
@[simp] theorem State.take_pc (s : State) (rest : List Command) (r : Option Byte) : (s.take rest r).pc = s.pc := rfl
@[simp] theorem State.take_i (s : State) (rest : List Command) (r : Option Byte) : (s.take rest r).i = s.i := rfl
@[simp] theorem State.take_stack (s : State) (rest : List Command) (r : Option Byte) : (s.take rest r).stack = s.stack := rfl
@[simp] theorem State.take_sp (s : State) (rest : List Command) (r : Option Byte) : (s.take rest r).sp = s.sp := rfl
@[simp] theorem State.take_dt (s : State) (rest : List Command) (r : Option Byte) : (s.take rest r).dt = s.dt := rfl
@[simp] theorem State.take_st (s : State) (rest : List Command) (r : Option Byte) : (s.take rest r).st = s.st := rfl
@[simp] theorem State.take_disp (s : State) (rest : List Command) (r : Option Byte) : (s.take rest r).disp = s.disp := rfl
@[simp] theorem State.take_key (s : State) (rest : List Command) (r : Option Byte) : (s.take rest r).key = s.key := rfl
@[simp] theorem State.take_fault (s : State) (rest : List Command) (r : Option Byte) : (s.take rest r).fault = s.fault := rfl
@[simp] theorem State.take_font (s : State) (rest : List Command) (r : Option Byte) : (s.take rest r).font = s.font := rfl
@[simp] theorem State.take_inbox (s : State) (rest : List Command) (r : Option Byte) : (s.take rest r).inbox = rest := rfl
@[simp] theorem State.take_rnd (s : State) (rest : List Command) (r : Option Byte) : (s.take rest r).rnd = r := rfl
@[simp] theorem State.take_draws (s : State) (rest : List Command) (r : Option Byte) : (s.take rest r).draws = s.draws := rfl
@[simp] theorem State.take_reply (s : State) (rest : List Command) (r : Option Byte) : (s.take rest r).reply = .done := rfl

@[simp] theorem State.skipIf_mem (s : State) (c : Bool) : (s.skipIf c).mem = s.mem := by cases c <;> rfl
@[simp] theorem State.skipIf_v (s : State) (c : Bool) : (s.skipIf c).v = s.v := by cases c <;> rfl
@[simp] theorem State.skipIf_pc (s : State) (c : Bool) : (s.skipIf c).pc = (if c then s.pc + 2 else s.pc) := by cases c <;> rfl
@[simp] theorem State.skipIf_i (s : State) (c : Bool) : (s.skipIf c).i = s.i := by cases c <;> rfl
@[simp] theorem State.skipIf_stack (s : State) (c : Bool) : (s.skipIf c).stack = s.stack := by cases c <;> rfl
@[simp] theorem State.skipIf_sp (s : State) (c : Bool) : (s.skipIf c).sp = s.sp := by cases c <;> rfl
@[simp] theorem State.skipIf_dt (s : State) (c : Bool) : (s.skipIf c).dt = s.dt := by cases c <;> rfl
@[simp] theorem State.skipIf_st (s : State) (c : Bool) : (s.skipIf c).st = s.st := by cases c <;> rfl
@[simp] theorem State.skipIf_disp (s : State) (c : Bool) : (s.skipIf c).disp = s.disp := by cases c <;> rfl
@[simp] theorem State.skipIf_key (s : State) (c : Bool) : (s.skipIf c).key = s.key := by cases c <;> rfl
@[simp] theorem State.skipIf_fault (s : State) (c : Bool) : (s.skipIf c).fault = s.fault := by cases c <;> rfl
@[simp] theorem State.skipIf_font (s : State) (c : Bool) : (s.skipIf c).font = s.font := by cases c <;> rfl
@[simp] theorem State.skipIf_inbox (s : State) (c : Bool) : (s.skipIf c).inbox = s.inbox := by cases c <;> rfl
@[simp] theorem State.skipIf_rnd (s : State) (c : Bool) : (s.skipIf c).rnd = s.rnd := by cases c <;> rfl
@[simp] theorem State.skipIf_draws (s : State) (c : Bool) : (s.skipIf c).draws = s.draws := by cases c <;> rfl
@[simp] theorem State.skipIf_reply (s : State) (c : Bool) : (s.skipIf c).reply = s.reply := by cases c <;> rfl

/-- A memory list set twice is the second one. -/
@[simp] theorem State.setMem_setMem (s : State) (m m' : List Host.Cell) : (s.setMem m).setMem m' = s.setMem m' := rfl
@[simp] theorem State.setMem_mem_self (s : State) : s.setMem s.mem = s := rfl

end Sys2Proof.Machine
end

