-- ==== Sys2Proof/Laws/Ops.lean ====
section
/-!
SUPPORT. One lemma per shared operation that says what it can do: registers, memory, the block accesses, the fetch, the
stack, the key check, the end of an instruction, the pixels.
-/

namespace Sys2Proof.Machine

/-! ### Registers -/

/-- A read after a write of the register array. -/
theorem State.getV_setV (s : State) (x y : Reg) (b : Byte) :
    (s.setV x b).getV y = if x = y then b else s.getV y := by
  simp [State.getV, State.setV, Vector.getElem_set, Fin.ext_iff]

@[simp] theorem State.getV_setV_self (s : State) (x : Reg) (b : Byte) : (s.setV x b).getV x = b := by
  simp [State.getV_setV]

/-- VX and VF after a flag instruction: the flag is the last write (R79). -/
theorem State.getV_setResultAndFlag (s : State) (x y : Reg) (r f : Byte) :
    (s.setResultAndFlag x r f).getV y = if y = regF then f else if y = x then r else s.getV y := by
  simp only [State.setResultAndFlag, State.getV_setV, eq_comm (b := y)]

/-- A flag instruction's writes touch the register array only. -/
theorem State.setResultAndFlag_only_v (s : State) (x : Reg) (r f : Byte) :
    s.setResultAndFlag x r f = { s with v := (s.setResultAndFlag x r f).v } := rfl

/-! ### Memory -/

theorem Memory.read_insert (font : Vector Byte 80) (m : List Host.Cell) (a : Nat) (b : Byte) (c : Nat) :
    Memory.read font (Memory.insert a b m) c = if a = c then b else Memory.read font m c := by
  induction m with
  | nil => simp [Memory.insert, Memory.read]
  | cons e rest ih =>
    obtain ⟨k, d⟩ := e
    simp only [Memory.insert]
    split
    · simp [Memory.read]
    · split
      · next h => subst h; simp only [Memory.read]; split <;> rfl
      · next h =>
        simp only [Memory.read, ih]
        by_cases hk : k = c
        · subst hk; simp [Ne.symm h]
        · simp [hk]

theorem Memory.read_erase (font : Vector Byte 80) (m : List Host.Cell) (a c : Nat) :
    Memory.read font (Memory.erase a m) c = if a = c then Memory.initial font a else Memory.read font m c := by
  induction m with
  | nil =>
    simp only [Memory.erase, Memory.read]
    split
    · next h => rw [h]
    · rfl
  | cons e rest ih =>
    obtain ⟨k, d⟩ := e
    simp only [Memory.erase]
    split
    · next h =>
      subst h
      simp only [Memory.read, ih]
      split <;> rfl
    · next h =>
      simp only [Memory.read, ih]
      by_cases hk : k = c
      · subst hk; simp [Ne.symm h]
      · simp [hk]

/-- A read after a write: the byte written at its address, the old byte elsewhere. -/
theorem Memory.read_write (font : Vector Byte 80) (m : List Host.Cell) (a : Nat) (b : Byte) (c : Nat) :
    Memory.read font (Memory.write font m a b) c = if a = c then b else Memory.read font m c := by
  unfold Memory.write
  split
  · next h => rw [Memory.read_erase, h]
  · rw [Memory.read_insert]

theorem Memory.wfFrom_mono {font : Vector Byte 80} {m : List Host.Cell} {lo lo' : Nat} (h : lo' ≤ lo)
    (hm : Memory.wfFrom font lo m = true) : Memory.wfFrom font lo' m = true := by
  cases m with
  | nil => rfl
  | cons e rest =>
    simp only [Memory.wfFrom, Bool.and_eq_true, decide_eq_true_eq] at hm ⊢
    exact ⟨⟨⟨by omega, hm.1.1.2⟩, hm.1.2⟩, hm.2⟩

theorem Memory.wfFrom_erase {font : Vector Byte 80} {m : List Host.Cell} (a : Nat) {lo : Nat}
    (hm : Memory.wfFrom font lo m = true) : Memory.wfFrom font lo (Memory.erase a m) = true := by
  induction m generalizing lo with
  | nil => rfl
  | cons e rest ih =>
    simp only [Memory.wfFrom, Bool.and_eq_true, decide_eq_true_eq] at hm
    simp only [Memory.erase]
    split
    · exact ih (Memory.wfFrom_mono (by omega) hm.2)
    · simp only [Memory.wfFrom, Bool.and_eq_true, decide_eq_true_eq]
      exact ⟨hm.1, ih hm.2⟩

theorem Memory.wfFrom_insert {font : Vector Byte 80} {m : List Host.Cell} {a : Nat} {b : Byte} {lo : Nat}
    (hlo : lo ≤ a) (ha : a < 4096) (hb : b ≠ Memory.initial font a)
    (hm : Memory.wfFrom font lo m = true) : Memory.wfFrom font lo (Memory.insert a b m) = true := by
  induction m generalizing lo with
  | nil => simp [Memory.insert, Memory.wfFrom, hlo, ha, hb]
  | cons e rest ih =>
    simp only [Memory.wfFrom, Bool.and_eq_true, decide_eq_true_eq] at hm
    simp only [Memory.insert]
    split
    · next h =>
      simp only [Memory.wfFrom, Bool.and_eq_true, decide_eq_true_eq]
      exact ⟨⟨⟨hlo, ha⟩, by simpa using hb⟩, ⟨⟨⟨by omega, hm.1.1.2⟩, hm.1.2⟩, hm.2⟩⟩
    · split
      · next h =>
        simp only [Memory.wfFrom, Bool.and_eq_true, decide_eq_true_eq]
        exact ⟨⟨⟨hlo, ha⟩, by simpa using hb⟩, h ▸ hm.2⟩
      · simp only [Memory.wfFrom, Bool.and_eq_true, decide_eq_true_eq]
        exact ⟨hm.1, ih (by omega) hm.2⟩

/-- A write inside memory keeps the canonical form. -/
theorem Memory.wf_write {font : Vector Byte 80} {m : List Host.Cell} {a : Nat} (b : Byte) (ha : a < 4096)
    (hm : Memory.wf font m = true) : Memory.wf font (Memory.write font m a b) = true := by
  unfold Memory.write
  split
  · exact Memory.wfFrom_erase a hm
  · next hb => exact Memory.wfFrom_insert (Nat.zero_le a) ha hb hm

/-- Reset memory is in canonical form. -/
theorem State.reset_mem_wf : Memory.wf State.reset.font State.reset.mem = true := rfl

theorem State.readByte_writeByte (s : State) (a : Nat) (b : Byte) (c : Nat) :
    (s.writeByte a b).readByte c = if a = c then b else s.readByte c :=
  Memory.read_write s.font s.mem a b c

@[simp] theorem State.writeByte_font (s : State) (a : Nat) (b : Byte) : (s.writeByte a b).font = s.font := rfl

/-- Reads depend on the memory list and the font only. -/
theorem State.readByte_congr {s t : State} (hm : t.mem = s.mem) (hf : t.font = s.font) (a : Nat) :
    t.readByte a = s.readByte a := by simp [State.readByte, hm, hf]

/-- A block of stores touches the memory list only. -/
theorem State.writeBytes_only_mem (a : Nat) (bs : List Byte) (s : State) :
    State.writeBytes a bs s = s.setMem (State.writeBytes a bs s).mem := by
  induction bs generalizing a s with
  | nil => rfl
  | cons b bs ih => rw [State.writeBytes, ih]; rfl

@[simp] theorem State.writeBytes_font (a : Nat) (bs : List Byte) (s : State) :
    (State.writeBytes a bs s).font = s.font := by rw [State.writeBytes_only_mem]; rfl

/-- A read after a block of stores: inside the block its byte, outside the old byte. -/
theorem State.readByte_writeBytes (a : Nat) (bs : List Byte) (s : State) (c : Nat) :
    (State.writeBytes a bs s).readByte c =
      if h : a ≤ c ∧ c < a + bs.length then bs[c - a]'(by omega) else s.readByte c := by
  induction bs generalizing a s with
  | nil =>
    have : ¬ (a ≤ c ∧ c < a + ([] : List Byte).length) := by simp
    rw [dif_neg this]; rfl
  | cons b bs ih =>
    rw [State.writeBytes, ih]
    by_cases h1 : a + 1 ≤ c ∧ c < a + 1 + bs.length
    · have h2 : a ≤ c ∧ c < a + (b :: bs).length := by simp; omega
      rw [dif_pos h1, dif_pos h2]
      have : c - a = (c - (a + 1)) + 1 := by omega
      simp [this]
    · rw [dif_neg h1, State.readByte_writeByte]
      by_cases hac : a = c
      · subst hac
        simp
      · have h2 : ¬ (a ≤ c ∧ c < a + (b :: bs).length) := by simp; omega
        rw [if_neg hac, dif_neg h2]

/-- A block of stores inside memory keeps the canonical form. -/
theorem State.writeBytes_wf {a : Nat} {bs : List Byte} {s : State} (h : a + bs.length ≤ 4096)
    (hm : Memory.wf s.font s.mem = true) :
    Memory.wf (State.writeBytes a bs s).font (State.writeBytes a bs s).mem = true := by
  induction bs generalizing a s with
  | nil => exact hm
  | cons b bs ih =>
    simp only [List.length_cons] at h
    exact ih (by omega) (Memory.wf_write b (by omega) hm)

/-! ### Checked accesses -/

/-- CheckRange passes (R46). -/
theorem checkRange_ok {addr n : Nat} (h : n = 0 ∨ addr + n ≤ 4096) : checkRange addr n = .ok () := by
  unfold checkRange
  rw [if_neg (by omega)]

/-- CheckRange faults with the first address out of range (R46). -/
theorem checkRange_error {addr n : Nat} (hn : n ≠ 0) (h : 4096 < addr + n) :
    checkRange addr n = .error ⟨.memoryOutOfBounds, trunc16 (max addr 0x1000)⟩ := by
  unfold checkRange
  rw [if_pos (by omega)]

theorem memReadBlock_ok {addr n : Nat} {s : State} (h : addr + n ≤ 4096) :
    memReadBlock addr n s = .ok ((List.range n).map fun k => s.readByte (addr + k)) := by
  induction n generalizing addr with
  | zero => rfl
  | succ n ih =>
    rw [memReadBlock, memRead, if_pos (by omega)]
    simp only [ih (show addr + 1 + n ≤ 4096 by omega), List.range_succ_eq_map, List.map_cons, List.map_map]
    congr 2
    · apply List.map_congr_left
      intro k _
      simp [Nat.add_assoc, Nat.add_comm 1 k]

theorem memWriteBlock_ok {addr : Nat} {bs : List Byte} {s : State} (h : addr + bs.length ≤ 4096) :
    memWriteBlock addr bs s = .ok (State.writeBytes addr bs s) := by
  induction bs generalizing addr s with
  | nil => rfl
  | cons b bs ih =>
    simp only [List.length_cons] at h
    rw [memWriteBlock, memWrite, if_pos (by omega)]
    exact ih (by omega)

/-- A checked read in range answers the bytes, in order; nothing is read when n = 0. -/
theorem checkedRead_ok {addr n : Nat} {s : State} (h : n = 0 ∨ addr + n ≤ 4096) :
    checkedRead addr n s = .ok ((List.range n).map fun k => s.readByte (addr + k)) := by
  rw [checkedRead, checkRange_ok h]
  rcases h with rfl | h
  · rfl
  · exact memReadBlock_ok h

/-- A checked read out of range faults (R46). -/
theorem checkedRead_error {addr n : Nat} {s : State} (hn : n ≠ 0) (h : 4096 < addr + n) :
    checkedRead addr n s = .error ⟨.memoryOutOfBounds, trunc16 (max addr 0x1000)⟩ := by
  rw [checkedRead, checkRange_error hn h]

/-- A checked write in range stores the bytes, in order. -/
theorem checkedWrite_ok {addr : Nat} {bs : List Byte} {s : State} (h : addr + bs.length ≤ 4096) :
    checkedWrite addr bs s = .ok (State.writeBytes addr bs s) := by
  rw [checkedWrite, checkRange_ok (.inr h)]
  exact memWriteBlock_ok h

/-- A checked write out of range faults and stores nothing (R46). -/
theorem checkedWrite_error {addr : Nat} {bs : List Byte} {s : State} (hn : bs.length ≠ 0)
    (h : 4096 < addr + bs.length) :
    checkedWrite addr bs s = .error ⟨.memoryOutOfBounds, trunc16 (max addr 0x1000)⟩ := by
  rw [checkedWrite, checkRange_error hn h]

/-- `V0..VX` is X + 1 bytes. -/
@[simp] theorem State.lowRegs_length (s : State) (x : Reg) : (s.lowRegs x).length = x.val + 1 := by
  simp [State.lowRegs]

/-- The k-th byte of `V0..VX` is Vk. -/
theorem State.lowRegs_getElem (s : State) (x : Reg) {k : Nat} (h : k < (s.lowRegs x).length) :
    (s.lowRegs x)[k] = s.getV ⟨k, by simp at h; omega⟩ := by
  simp [State.lowRegs, State.getV]

/-- The register array after an ascending load from register `k` on. -/
theorem putRegs_getElem (k : Nat) (bs : List Byte) (v : Vector Byte 16) (j : Nat) (hj : j < 16) :
    (putRegs k bs v)[j] = if h : k ≤ j ∧ j < k + bs.length then bs[j - k]'(by omega) else v[j] := by
  induction bs generalizing k v with
  | nil =>
    have : ¬ (k ≤ j ∧ j < k + ([] : List Byte).length) := by simp
    rw [dif_neg this]; rfl
  | cons b bs ih =>
    rw [putRegs, ih]
    by_cases h1 : k + 1 ≤ j ∧ j < k + 1 + bs.length
    · have h2 : k ≤ j ∧ j < k + (b :: bs).length := by simp; omega
      rw [dif_pos h1, dif_pos h2]
      have : j - k = (j - (k + 1)) + 1 := by omega
      simp [this]
    · rw [dif_neg h1, Vector.getElem_setIfInBounds]
      by_cases hkj : k = j
      · subst hkj
        simp
      · have h2 : ¬ (k ≤ j ∧ j < k + (b :: bs).length) := by simp; omega
        rw [if_neg hkj, dif_neg h2]

/-! ### Fetch, stack, keys, the end of an instruction -/

/-- A fetch inside memory (R42). -/
theorem fetch_ok {s : State} (h : s.pc.toNat ≤ 0xFFE) :
    fetch s = .ok (s.wordAt s.pc.toNat, s.setPc (s.pc + 2)) := by
  unfold fetch
  rw [if_neg (by omega)]

/-- A fetch past memory faults (R42). -/
theorem fetch_error {s : State} (h : 0xFFE < s.pc.toNat) :
    fetch s = .error ⟨.fetchOutOfBounds, if 0xFFF < s.pc.toNat then s.pc else trunc16 (s.pc.toNat + 1)⟩ := by
  unfold fetch
  rw [if_pos (by omega)]

/-- Push with a free entry (R69). -/
theorem push_ok {s : State} (w : Word) (h : s.sp.val < 16) :
    push w s = .ok { s with stack := s.stack.set s.sp.val w h, sp := ⟨s.sp.val + 1, by omega⟩ } := by
  simp [push, h]

/-- Push on a full stack faults (R69). -/
theorem push_error {s : State} (w : Word) (h : s.sp.val = 16) : push w s = .error ⟨.stackOverflow, 0⟩ := by
  simp [push, h]

/-- Pop of a used entry (R69). -/
theorem pop_ok {s : State} (h : s.sp.val ≠ 0) :
    pop s = .ok (s.stack[s.sp.val - 1]'(by omega), { s with sp := ⟨s.sp.val - 1, by omega⟩ }) := by
  simp [pop, h]

/-- Pop of an empty stack faults (R69). -/
theorem pop_error {s : State} (h : s.sp.val = 0) : pop s = .error ⟨.stackUnderflow, 0⟩ := by
  simp [pop, h]

/-- A key index in range (R102). -/
theorem checkedKey_ok {k : Nat} {s : State} (h : k < 16) : checkedKey k s = .ok (s.key[k]) := by
  simp [checkedKey, h]

/-- A key index out of range faults (R102, R103). -/
theorem checkedKey_error {k : Nat} {s : State} (h : 15 < k) :
    checkedKey k s = .error ⟨.keyIndexOutOfRange, trunc16 k⟩ := by
  simp [checkedKey, show ¬ k < 16 by omega]

@[simp] theorem finish_ok (ins : Instr) (s t : State) : finish ins s (.ok t) = .next t := rfl
@[simp] theorem finish_error (ins : Instr) (s : State) (f : MachineFault) :
    finish ins s (.error f) = .next (s.raise (s.pc - 2) (encode ins) f) := rfl

/-! ### Pixels -/

/-- A pixel after a flip: inverted at its place, unchanged elsewhere. -/
theorem Screen.pixel_flip (d : Screen) (x x' : Fin 64) (y y' : Fin 32) :
    (d.flip x y).pixel x' y' = if x = x' ∧ y = y' then !d.pixel x y else d.pixel x' y' := by
  simp only [Screen.pixel, Screen.flip, Fin.getElem_fin, Vector.getElem_set]
  by_cases hy : y = y'
  · subst hy
    by_cases hx : x = x'
    · subst hx; simp
    · have : x.val ≠ x'.val := fun h => hx (Fin.ext h)
      simp [hx, this]
  · have : y.val ≠ y'.val := fun h => hy (Fin.ext h)
    simp [hy, this]

@[simp] theorem Screen.pixel_clear (x : Fin 64) (y : Fin 32) : Screen.clear.pixel x y = false := by
  simp [Screen.pixel, Screen.clear]

end Sys2Proof.Machine
end

