-- ==== Sys2Proof/Laws/Exec.lean ====
section
/-!
SUPPORT. What the execute phase can do, said once: every instruction either takes a machine fault or has the effect
listed for it. Later proofs take `exec` apart with `exec_cases`.
-/

namespace Sys2Proof.Machine

/-- The effect of an instruction that takes no fault, as a relation between the state before and after. -/
def Effect (ins : Instr) (s t : State) : Prop :=
  match ins with
  | .nop => t = s
  | .cls => t = s.setDisp Screen.clear
  | .ret => ∃ h : s.sp.val ≠ 0, t = { s with sp := ⟨s.sp.val - 1, by omega⟩, pc := s.stack[s.sp.val - 1]'(by omega) }
  | .jp n => t = s.setPc (zextAddr n)
  | .call n => ∃ h : s.sp.val < 16, t = { s with stack := s.stack.set s.sp.val s.pc h, sp := ⟨s.sp.val + 1, by omega⟩, pc := zextAddr n }
  | .drw x y n => ∃ r : Screen × Bool, t = (s.setDisp r.1).setV regF (flagByte r.2)
  | .ldB x => ∃ bs, s.i.toNat + bs.length ≤ 4096 ∧ t = State.writeBytes s.i.toNat bs s
  | .storeRegs x => ∃ bs, s.i.toNat + bs.length ≤ 4096 ∧ t = State.writeBytes s.i.toNat bs s
  | .loadRegs x => ∃ bs, bs.length = x.val + 1 ∧ t = s.setVs (putRegs 0 bs s.v)
  | .skp x => ∃ c, t = s.skipIf c
  | .sknp x => ∃ c, t = s.skipIf c
  | .seImm x _ => ∃ c, t = s.skipIf c
  | .sneImm x _ => ∃ c, t = s.skipIf c
  | .seReg x _ => ∃ c, t = s.skipIf c
  | .sneReg x _ => ∃ c, t = s.skipIf c
  | .ldVxK x => (∃ k, s.firstKey = some k ∧ t = s.setV x (trunc8 k.val)) ∨ t = s.setPc (s.pc - 2)
  | .ldI _ => ∃ w, t = s.setI w
  | .addI _ => ∃ w, t = s.setI w
  | .ldF _ => ∃ w, t = s.setI w
  | .jpV0 n => t = s.setPc (zextAddr n + zextByte (s.getV 0))
  | .rnd x n => t = (s.setV x (s.draw8 &&& n)).consumeDraw
  | .ldStVx x => t = s.setSt (s.getV x)
  | .ldImm x _ => ∃ b, t = s.setV x b
  | .addImm x _ => ∃ b, t = s.setV x b
  | .ldReg x _ => ∃ b, t = s.setV x b
  | .orReg x _ => ∃ b, t = s.setV x b
  | .andReg x _ => ∃ b, t = s.setV x b
  | .xorReg x _ => ∃ b, t = s.setV x b
  | .ldVxDt x => ∃ b, t = s.setV x b
  | .addReg x _ => ∃ b f, t = s.setResultAndFlag x b f
  | .subReg x _ => ∃ b f, t = s.setResultAndFlag x b f
  | .subnReg x _ => ∃ b f, t = s.setResultAndFlag x b f
  | .shr x _ => ∃ b f, t = s.setResultAndFlag x b f
  | .shl x _ => ∃ b f, t = s.setResultAndFlag x b f

/-- The execute phase takes a machine fault or has the instruction's effect. -/
theorem exec_cases (ins : Instr) (s t : State) (h : exec ins s = .next t) :
    (∃ m, t = s.raise (s.pc - 2) (encode ins) m) ∨ Effect ins s t := by
  cases ins with
  | drw x y n =>
    simp only [exec, execDrw] at h
    by_cases hh : n = 0 ∨ s.i.toNat + n ≤ 4096
    · rw [checkedRead_ok hh] at h; injection h with h; exact .inr ⟨_, h.symm⟩
    · rw [checkedRead_error (by omega) (by omega)] at h; injection h with h; exact .inl ⟨_, h.symm⟩
  | ldB x =>
    simp only [exec, execLdB] at h
    by_cases hh : s.i.toNat + (bcdDigits (s.getV x)).length ≤ 4096
    · rw [checkedWrite_ok hh] at h; injection h with h; exact .inr ⟨_, hh, h.symm⟩
    · rw [checkedWrite_error (by simp [bcdDigits]) (by omega)] at h; injection h with h; exact .inl ⟨_, h.symm⟩
  | storeRegs x =>
    simp only [exec, execStoreRegs] at h
    by_cases hh : s.i.toNat + (s.lowRegs x).length ≤ 4096
    · rw [checkedWrite_ok hh] at h; injection h with h; exact .inr ⟨_, hh, h.symm⟩
    · rw [checkedWrite_error (by simp) (by omega)] at h; injection h with h; exact .inl ⟨_, h.symm⟩
  | loadRegs x =>
    simp only [exec, execLoadRegs] at h
    by_cases hh : s.i.toNat + (x.val + 1) ≤ 4096
    · rw [checkedRead_ok (.inr hh)] at h; injection h with h; exact .inr ⟨_, by simp, h.symm⟩
    · rw [checkedRead_error (by omega) (by omega)] at h; injection h with h; exact .inl ⟨_, h.symm⟩
  | call n =>
    simp only [exec, execCall] at h
    by_cases hh : s.sp.val < 16
    · rw [push_ok _ hh] at h; injection h with h; exact .inr ⟨hh, h.symm⟩
    · rw [push_error _ (by omega)] at h; injection h with h; exact .inl ⟨_, h.symm⟩
  | ret =>
    simp only [exec, execRet] at h
    by_cases hh : s.sp.val = 0
    · rw [pop_error hh] at h; injection h with h; exact .inl ⟨_, h.symm⟩
    · rw [pop_ok hh] at h; injection h with h; exact .inr ⟨hh, h.symm⟩
  | skp x =>
    simp only [exec, execSkp] at h
    by_cases hh : (s.getV x).toNat < 16
    · rw [checkedKey_ok hh] at h; injection h with h; exact .inr ⟨_, h.symm⟩
    · rw [checkedKey_error (by omega)] at h; injection h with h; exact .inl ⟨_, h.symm⟩
  | sknp x =>
    simp only [exec, execSknp] at h
    by_cases hh : (s.getV x).toNat < 16
    · rw [checkedKey_ok hh] at h; injection h with h; exact .inr ⟨_, h.symm⟩
    · rw [checkedKey_error (by omega)] at h; injection h with h; exact .inl ⟨_, h.symm⟩
  | ldVxK x =>
    simp only [exec, execLdVxK] at h
    split at h
    · injection h with h; exact .inr (.inl ⟨_, by assumption, h.symm⟩)
    · injection h with h; exact .inr (.inr h.symm)
  | _ => injection h with h; first | exact .inr h.symm | exact .inr ⟨_, h.symm⟩ | exact .inr ⟨_, _, h.symm⟩

end Sys2Proof.Machine
end

