-- ==== Sys2Proof/Laws/PerInstr.lean ====
section
/-!
SUPPORT. The family PatternFits: the word an instruction encodes to has the fixed bits of its row of
spec/opcode_table.json (30_encoding.md R61, R68). One lemma per constructor.
-/

namespace Sys2Proof.Laws.PatternFits

/-- The encoding of the instruction fits its row of the table. -/
def Statement (i : Instr) : Prop := (patternOf i).fits (encode i) = true

/-- The mask 0xF000 keeps digit1. -/
theorem top_nibble (op : Word) : op &&& 0xF000#16 = (op >>> 12) <<< 12 := by
  ext k hk
  rcases k with _ | _ | _ | _ | _ | _ | _ | _ | _ | _ | _ | _ | _ | _ | _ | _ | k <;> simp_all
  omega

/-- A word with digit1 = d fits the row whose mask is 0xF000 and whose value is d in the top nibble. -/
theorem fits_top {op : Word} {d : Nat} (h : op.toNat / 4096 = d) :
    (Pattern.mk 0xF000 (BitVec.ofNat 16 (d * 4096))).fits op = true := by
  simp only [Pattern.fits, beq_iff_eq]
  rw [show op &&& (0xF000 : Word) = (op >>> 12) <<< 12 from top_nibble op]
  apply BitVec.eq_of_toNat_eq
  have := op.isLt
  simp only [BitVec.toNat_shiftLeft, BitVec.toNat_ushiftRight, BitVec.toNat_ofNat, Nat.shiftLeft_eq,
    Nat.shiftRight_eq_div_pow]
  omega

theorem encodeNNN_top (d : Nat) (hd : d < 16) (a : Addr12) : (encodeNNN d a).toNat / 4096 = d := by
  have := a.isLt
  simp only [encodeNNN, BitVec.toNat_ofNat]
  omega

theorem encodeXNN_top (d : Nat) (hd : d < 16) (x : Reg) (k : Byte) : (encodeXNN d x k).toNat / 4096 = d := by
  have := k.isLt
  have := x.isLt
  simp only [encodeXNN, BitVec.toNat_ofNat]
  omega

theorem encodeXYN_top (d : Nat) (hd : d < 16) (x y : Reg) (n : Nat) : (encodeXYN d x y n).toNat / 4096 = d := by
  have := x.isLt
  have := y.isLt
  simp only [encodeXYN, BitVec.toNat_ofNat]
  omega

theorem nop : Statement .nop := by unfold Statement; decide
theorem cls : Statement .cls := by unfold Statement; decide
theorem ret : Statement .ret := by unfold Statement; decide
theorem jp (nnn : Addr12) : Statement (.jp nnn) := fits_top (encodeNNN_top 1 (by decide) nnn)
theorem call (nnn : Addr12) : Statement (.call nnn) := fits_top (encodeNNN_top 2 (by decide) nnn)
theorem seImm (x : Reg) (nn : Byte) : Statement (.seImm x nn) := fits_top (encodeXNN_top 3 (by decide) x nn)
theorem sneImm (x : Reg) (nn : Byte) : Statement (.sneImm x nn) := fits_top (encodeXNN_top 4 (by decide) x nn)
theorem seReg (x y : Reg) : Statement (.seReg x y) := by revert x y; unfold Statement; decide
theorem ldImm (x : Reg) (nn : Byte) : Statement (.ldImm x nn) := fits_top (encodeXNN_top 6 (by decide) x nn)
theorem addImm (x : Reg) (nn : Byte) : Statement (.addImm x nn) := fits_top (encodeXNN_top 7 (by decide) x nn)
theorem ldReg (x y : Reg) : Statement (.ldReg x y) := by revert x y; unfold Statement; decide
theorem orReg (x y : Reg) : Statement (.orReg x y) := by revert x y; unfold Statement; decide
theorem andReg (x y : Reg) : Statement (.andReg x y) := by revert x y; unfold Statement; decide
theorem xorReg (x y : Reg) : Statement (.xorReg x y) := by revert x y; unfold Statement; decide
theorem addReg (x y : Reg) : Statement (.addReg x y) := by revert x y; unfold Statement; decide
theorem subReg (x y : Reg) : Statement (.subReg x y) := by revert x y; unfold Statement; decide
theorem shr (x y : Reg) : Statement (.shr x y) := by revert x y; unfold Statement; decide
theorem subnReg (x y : Reg) : Statement (.subnReg x y) := by revert x y; unfold Statement; decide
theorem shl (x y : Reg) : Statement (.shl x y) := by revert x y; unfold Statement; decide
theorem sneReg (x y : Reg) : Statement (.sneReg x y) := by revert x y; unfold Statement; decide
theorem ldI (nnn : Addr12) : Statement (.ldI nnn) := fits_top (encodeNNN_top 10 (by decide) nnn)
theorem jpV0 (nnn : Addr12) : Statement (.jpV0 nnn) := fits_top (encodeNNN_top 11 (by decide) nnn)
theorem rnd (x : Reg) (nn : Byte) : Statement (.rnd x nn) := fits_top (encodeXNN_top 12 (by decide) x nn)
theorem drw (x y : Reg) (n : Nat) : Statement (.drw x y n) := fits_top (encodeXYN_top 13 (by decide) x y n)
theorem skp (x : Reg) : Statement (.skp x) := by revert x; unfold Statement; decide
theorem sknp (x : Reg) : Statement (.sknp x) := by revert x; unfold Statement; decide
theorem ldVxDt (x : Reg) : Statement (.ldVxDt x) := by revert x; unfold Statement; decide
theorem ldVxK (x : Reg) : Statement (.ldVxK x) := by revert x; unfold Statement; decide
theorem ldStVx (x : Reg) : Statement (.ldStVx x) := by revert x; unfold Statement; decide
theorem addI (x : Reg) : Statement (.addI x) := by revert x; unfold Statement; decide
theorem ldF (x : Reg) : Statement (.ldF x) := by revert x; unfold Statement; decide
theorem ldB (x : Reg) : Statement (.ldB x) := by revert x; unfold Statement; decide
theorem storeRegs (x : Reg) : Statement (.storeRegs x) := by revert x; unfold Statement; decide
theorem loadRegs (x : Reg) : Statement (.loadRegs x) := by revert x; unfold Statement; decide

end Sys2Proof.Laws.PatternFits
end

