-- ==== Sys2Proof/Tests/Slice0.lean ====
section
/-!
SUPPORT. Small tests, with expected results from spec 95_test_vectors.md (the vector is named beside each test) or
worked out by hand from the rule named, and one witness for each clause of a statement that has hypotheses.
-/

namespace Sys2Proof.Tests

open Sys2Proof.Machine Sys2Proof.Claims

/-! ### Well-formed instructions: the one check refuses, and accepts at its bound -/

theorem test_wellFormed_drw_16_refused : wellFormed (.drw 0 0 16) = false := by decide
theorem test_wellFormed_drw_15_accepted : wellFormed (.drw 0 0 15) = true := by decide

/-! ### Decoding: a word written out from the formats of R59 and the patterns of R62, and the encoder's answer -/

theorem test_decode_nop : decodeWord 0x0000 = some (.nop) ∧ encode (.nop) = 0x0000 := by decide
theorem test_decode_cls : decodeWord 0x00E0 = some (.cls) ∧ encode (.cls) = 0x00E0 := by decide
theorem test_decode_ret : decodeWord 0x00EE = some (.ret) ∧ encode (.ret) = 0x00EE := by decide
theorem test_decode_jp : decodeWord 0x1A5C = some (.jp 0xA5C) ∧ encode (.jp 0xA5C) = 0x1A5C := by decide
theorem test_decode_call : decodeWord 0x2F01 = some (.call 0xF01) ∧ encode (.call 0xF01) = 0x2F01 := by decide
theorem test_decode_seImm : decodeWord 0x3B7E = some (.seImm 11 0x7E) ∧ encode (.seImm 11 0x7E) = 0x3B7E := by decide
theorem test_decode_sneImm : decodeWord 0x4C81 = some (.sneImm 12 0x81) ∧ encode (.sneImm 12 0x81) = 0x4C81 := by decide
theorem test_decode_seReg : decodeWord 0x57A0 = some (.seReg 7 10) ∧ encode (.seReg 7 10) = 0x57A0 := by decide
theorem test_decode_ldImm : decodeWord 0x6D3F = some (.ldImm 13 0x3F) ∧ encode (.ldImm 13 0x3F) = 0x6D3F := by decide
theorem test_decode_addImm : decodeWord 0x72FE = some (.addImm 2 0xFE) ∧ encode (.addImm 2 0xFE) = 0x72FE := by decide
theorem test_decode_ldReg : decodeWord 0x8E10 = some (.ldReg 14 1) ∧ encode (.ldReg 14 1) = 0x8E10 := by decide
theorem test_decode_orReg : decodeWord 0x83C1 = some (.orReg 3 12) ∧ encode (.orReg 3 12) = 0x83C1 := by decide
theorem test_decode_andReg : decodeWord 0x8A52 = some (.andReg 10 5) ∧ encode (.andReg 10 5) = 0x8A52 := by decide
theorem test_decode_xorReg : decodeWord 0x8F03 = some (.xorReg 15 0) ∧ encode (.xorReg 15 0) = 0x8F03 := by decide
theorem test_decode_addReg : decodeWord 0x8694 = some (.addReg 6 9) ∧ encode (.addReg 6 9) = 0x8694 := by decide
theorem test_decode_subReg : decodeWord 0x8B25 = some (.subReg 11 2) ∧ encode (.subReg 11 2) = 0x8B25 := by decide
theorem test_decode_shr : decodeWord 0x84D6 = some (.shr 4 13) ∧ encode (.shr 4 13) = 0x84D6 := by decide
theorem test_decode_subnReg : decodeWord 0x8187 = some (.subnReg 1 8) ∧ encode (.subnReg 1 8) = 0x8187 := by decide
theorem test_decode_shl : decodeWord 0x89EE = some (.shl 9 14) ∧ encode (.shl 9 14) = 0x89EE := by decide
theorem test_decode_sneReg : decodeWord 0x9CF0 = some (.sneReg 12 15) ∧ encode (.sneReg 12 15) = 0x9CF0 := by decide
theorem test_decode_ldI : decodeWord 0xA2B3 = some (.ldI 0x2B3) ∧ encode (.ldI 0x2B3) = 0xA2B3 := by decide
theorem test_decode_jpV0 : decodeWord 0xB9C4 = some (.jpV0 0x9C4) ∧ encode (.jpV0 0x9C4) = 0xB9C4 := by decide
theorem test_decode_rnd : decodeWord 0xC51F = some (.rnd 5 0x1F) ∧ encode (.rnd 5 0x1F) = 0xC51F := by decide
theorem test_decode_drw : decodeWord 0xD8AF = some (.drw 8 10 15) ∧ encode (.drw 8 10 15) = 0xD8AF := by decide
theorem test_decode_skp : decodeWord 0xE69E = some (.skp 6) ∧ encode (.skp 6) = 0xE69E := by decide
theorem test_decode_sknp : decodeWord 0xEDA1 = some (.sknp 13) ∧ encode (.sknp 13) = 0xEDA1 := by decide
theorem test_decode_ldVxDt : decodeWord 0xF407 = some (.ldVxDt 4) ∧ encode (.ldVxDt 4) = 0xF407 := by decide
theorem test_decode_ldVxK : decodeWord 0xF90A = some (.ldVxK 9) ∧ encode (.ldVxK 9) = 0xF90A := by decide
theorem test_decode_ldStVx : decodeWord 0xFB15 = some (.ldStVx 11) ∧ encode (.ldStVx 11) = 0xFB15 := by decide
theorem test_decode_addI : decodeWord 0xF31E = some (.addI 3) ∧ encode (.addI 3) = 0xF31E := by decide
theorem test_decode_ldF : decodeWord 0xFC29 = some (.ldF 12) ∧ encode (.ldF 12) = 0xFC29 := by decide
theorem test_decode_ldB : decodeWord 0xF733 = some (.ldB 7) ∧ encode (.ldB 7) = 0xF733 := by decide
theorem test_decode_storeRegs : decodeWord 0xFE55 = some (.storeRegs 14) ∧ encode (.storeRegs 14) = 0xFE55 := by decide
theorem test_decode_loadRegs : decodeWord 0xF265 = some (.loadRegs 2) ∧ encode (.loadRegs 2) = 0xF265 := by decide

/-- Words of no pattern, one of each shape in R65 (V2 to V6). -/
theorem test_decode_unrecognised :
    ([0x0123, 0x5011, 0x9011, 0x801F, 0x8008, 0xF018, 0xE000, 0xE19F, 0x00FF, 0xF000] : List Word).all
      (fun op => (decodeWord op).isNone) = true := by decide
/-- The byte at the lower address is the high byte (R40). -/
theorem test_decode_bytes : decodeBytes [0x12, 0x34, 0x56] = .ok (.jp 0x234, [0x56]) := by decide
/-- A lone byte is no instruction. -/
theorem test_decode_truncated : decodeBytes [0x12] = .error .truncated := by decide
/-- A word numbered as the opcode table numbers it. -/
theorem test_decodeTableWord : decodeTableWord 16 0x8694 = some (.addReg 6 9) ∧ decodeTableWord 16 0x8698 = none := by
  decide

/-! ### One step of each instruction: the opcode at 0x300, as section 2 of the vectors has it -/

/-- The reset state with PC = 0x300. -/
def base : State := { State.reset with pc := 0x300 }

/-- A state after one STEP of the opcode placed at PC has `p`. -/
def ran (op : Word) (s : State) (p : State → Bool) : Bool :=
  match step (s.placeWord op) with
  | .next t => p t
  | _ => false

/-- A state with bytes in memory from an address on. -/
def stored (a : Nat) (bs : List Byte) (s : State) : State := State.writeBytes a bs s

/-- A state with a return address on its stack. -/
def returning : State := { base with sp := 1, stack := base.stack.set 0 0x206 }

/-- A state with one key pressed. -/
def pressed (k : Fin 16) (s : State) : State := s.setKey k true

/-- A display with one pixel ON. -/
def lit (x : Fin 64) (y : Fin 32) (s : State) : State := s.setDisp (s.disp.flip x y)

/-- The ON pixels of row `y`. -/
def rowOn (y : Fin 32) (s : State) : List (Fin 64) := (List.finRange 64).filter (fun x => s.disp.pixel x y)

/-- The record of a fault of the instruction at 0x300. -/
def record (k : FaultKind) (op addr : Word) : Option FaultRecord := some ⟨k, 0x300, op, addr⟩

/-- V1. -/
theorem test_nop : ran 0x0000 (base) (fun t =>
    t.pc == 0x302 && t.fault.isNone) = true := by decide
/-- V5. -/
theorem test_unrecognised_8XYF : ran 0x801F ((((base.setV 0 0x12).setV 1 0x34).setV 15 0x56)) (fun t =>
    t.getV 0 == 0x12 && t.getV 15 == 0x56 && t.pc == 0x302) = true := by decide
/-- V6. -/
theorem test_unrecognised_FX18 : ran 0xF018 ((base.setV 0 5)) (fun t =>
    t.st == 0 && t.pc == 0x302) = true := by decide
/-- V8: an odd target. -/
theorem test_jp : ran 0x1301 (base) (fun t =>
    t.pc == 0x301 && t.fault.isNone) = true := by decide
/-- V10. -/
theorem test_call_at_15 : ran 0x2400 ({ base with sp := 15 }) (fun t =>
    t.pc == 0x400 && t.sp == 16 && t.stack[15] == 0x302) = true := by decide
/-- V11. -/
theorem test_call_full : ran 0x2400 ({ base with sp := 16 }) (fun t =>
    t.pc == 0x300 && t.sp == 16 && t.fault == record .stackOverflow 0x2400 0) = true := by decide
/-- V12. -/
theorem test_ret : ran 0x00EE (returning) (fun t =>
    t.pc == 0x206 && t.sp == 0 && t.stack[0] == 0x206) = true := by decide
/-- V13. -/
theorem test_ret_empty : ran 0x00EE (base) (fun t =>
    t.pc == 0x300 && t.fault == record .stackUnderflow 0x00EE 0) = true := by decide
/-- V14. -/
theorem test_seImm_equal : ran 0x3542 ((base.setV 5 0x42)) (fun t =>
    t.pc == 0x304) = true := by decide
/-- V15. -/
theorem test_seImm_differs : ran 0x3542 ((base.setV 5 0x43)) (fun t =>
    t.pc == 0x302) = true := by decide
/-- V16. -/
theorem test_sneImm_equal : ran 0x4542 ((base.setV 5 0x42)) (fun t =>
    t.pc == 0x302) = true := by decide
/-- V17. -/
theorem test_sneImm_differs : ran 0x4542 ((base.setV 5 0x43)) (fun t =>
    t.pc == 0x304) = true := by decide
/-- V18. -/
theorem test_seReg_equal : ran 0x5560 (((base.setV 5 7).setV 6 7)) (fun t =>
    t.pc == 0x304) = true := by decide
/-- R76. -/
theorem test_seReg_differs : ran 0x5560 (((base.setV 5 7).setV 6 8)) (fun t =>
    t.pc == 0x302) = true := by decide
/-- V20. -/
theorem test_sneReg_differs : ran 0x9560 (((base.setV 5 7).setV 6 8)) (fun t =>
    t.pc == 0x304) = true := by decide
/-- V21. -/
theorem test_sneReg_same : ran 0x9550 ((base.setV 5 9)) (fun t =>
    t.pc == 0x302) = true := by decide
/-- V22. -/
theorem test_jpV0 : ran 0xB300 ((base.setV 0 0x10)) (fun t =>
    t.pc == 0x310) = true := by decide
/-- V23. -/
theorem test_jpV0_no_wrap : ran 0xBFFF ((base.setV 0 0xFF)) (fun t =>
    t.pc == 0x10FE && t.fault.isNone) = true := by decide
/-- V24. -/
theorem test_ldImm : ran 0x6A5C (base) (fun t =>
    t.getV 10 == 0x5C) = true := by decide
/-- V25. -/
theorem test_addImm_wraps : ran 0x7AFF (((base.setV 10 1).setV 15 0x77)) (fun t =>
    t.getV 10 == 0 && t.getV 15 == 0x77) = true := by decide
/-- V26. -/
theorem test_addImm_to_VF : ran 0x7F01 ((base.setV 15 0xFF)) (fun t =>
    t.getV 15 == 0) = true := by decide
/-- V27. -/
theorem test_ldReg : ran 0x8120 ((base.setV 2 0x99)) (fun t =>
    t.getV 1 == 0x99 && t.getV 2 == 0x99) = true := by decide
/-- V28. -/
theorem test_orReg : ran 0x8121 ((((base.setV 1 0xF0).setV 2 0x0F).setV 15 0x77)) (fun t =>
    t.getV 1 == 0xFF && t.getV 15 == 0x77) = true := by decide
/-- V29. -/
theorem test_andReg : ran 0x8122 ((((base.setV 1 0xF0).setV 2 0x3C).setV 15 0x77)) (fun t =>
    t.getV 1 == 0x30 && t.getV 15 == 0x77) = true := by decide
/-- V30. -/
theorem test_xorReg : ran 0x8123 ((((base.setV 1 0xF0).setV 2 0x3C).setV 15 0x77)) (fun t =>
    t.getV 1 == 0xCC && t.getV 15 == 0x77) = true := by decide
/-- V32. -/
theorem test_addReg_carry : ran 0x8124 (((base.setV 1 0xFF).setV 2 1)) (fun t =>
    t.getV 1 == 0 && t.getV 15 == 1) = true := by decide
/-- V36. -/
theorem test_addReg_to_VF : ran 0x8F24 (((base.setV 15 0x10).setV 2 1)) (fun t =>
    t.getV 15 == 0) = true := by decide
/-- V39. -/
theorem test_subReg_borrow : ran 0x8125 (((base.setV 1 0).setV 2 1)) (fun t =>
    t.getV 1 == 0xFF && t.getV 15 == 0) = true := by decide
/-- V40. -/
theorem test_subReg_equal : ran 0x8125 (((base.setV 1 5).setV 2 5)) (fun t =>
    t.getV 1 == 0 && t.getV 15 == 1) = true := by decide
/-- V43. -/
theorem test_shr_ignores_VY : ran 0x8126 (((base.setV 1 5).setV 2 0xFF)) (fun t =>
    t.getV 1 == 2 && t.getV 15 == 1) = true := by decide
/-- V45. -/
theorem test_shr_of_VF : ran 0x8F06 ((base.setV 15 3)) (fun t =>
    t.getV 15 == 1) = true := by decide
/-- V46. -/
theorem test_subnReg_borrow : ran 0x8127 (((base.setV 1 1).setV 2 0)) (fun t =>
    t.getV 1 == 0xFF && t.getV 15 == 0) = true := by decide
/-- V47. -/
theorem test_subnReg_no_borrow : ran 0x8127 (((base.setV 1 1).setV 2 0x10)) (fun t =>
    t.getV 1 == 0x0F && t.getV 15 == 1) = true := by decide
/-- V49. -/
theorem test_shl_msb : ran 0x812E ((base.setV 1 0x81)) (fun t =>
    t.getV 1 == 2 && t.getV 15 == 1) = true := by decide
/-- V50. -/
theorem test_shl_no_msb : ran 0x812E ((base.setV 1 0x7F)) (fun t =>
    t.getV 1 == 0xFE && t.getV 15 == 0) = true := by decide
/-- V52: the host's STEP names the draw 0xAB. -/
theorem test_rnd_masks : (match step { base.placeWord 0xC30F with inbox := [.step 0xAB] } with
    | .next t => t.getV 3 == 0x0B && t.draws == 1 && t.inbox == []
    | _ => false) = true := by decide
/-- V53: a zero mask gives 0 whatever the draw. -/
theorem test_rnd_zero_mask : (match step { base.placeWord 0xC300 with inbox := [.step 0xAB] } with
    | .next t => t.getV 3 == 0
    | _ => false) = true := by decide
/-- V55. -/
theorem test_ldI : ran 0xAFFF (base) (fun t =>
    t.i == 0x0FFF) = true := by decide
/-- V57. -/
theorem test_addI_past_memory : ran 0xF21E ((base.setV 2 1).setI 0xFFF) (fun t =>
    t.i == 0x1000 && t.fault.isNone) = true := by decide
/-- V58. -/
theorem test_addI_wraps : ran 0xF21E ((((base.setV 2 1).setV 15 0x77)).setI 0xFFFF) (fun t =>
    t.i == 0 && t.getV 15 == 0x77) = true := by decide
/-- V59. -/
theorem test_ldF : ran 0xF029 ((base.setV 0 0x0A)) (fun t =>
    t.i == 0x32) = true := by decide
/-- V61. -/
theorem test_ldF_no_mask : ran 0xF029 ((base.setV 0 0xFF)) (fun t =>
    t.i == 0x4FB) = true := by decide
/-- V67. -/
theorem test_ldB : ran 0xF033 ((base.setV 0 0x7B).setI 0xFFD) (fun t =>
    t.readByte 0xFFD == 1 && t.readByte 0xFFE == 2 && t.readByte 0xFFF == 3 && t.i == 0xFFD) = true := by decide
/-- V68. -/
theorem test_ldB_out_of_range : ran 0xF033 ((base.setV 0 0x7B).setI 0xFFE) (fun t =>
    t.readByte 0xFFE == 0 && t.pc == 0x300 && t.fault == record .memoryOutOfBounds 0xF033 0x1000) = true := by decide
/-- V69. -/
theorem test_storeRegs : ran 0xF055 (((base.setV 0 0xAA).setV 1 0xBB).setI 0x400) (fun t =>
    t.readByte 0x400 == 0xAA && t.readByte 0x401 == 0 && t.i == 0x400) = true := by decide
/-- V72. -/
theorem test_storeRegs_out_of_range : ran 0xF155 (((base.setV 0 1).setV 1 2).setI 0xFFF) (fun t =>
    t.readByte 0xFFF == 0 && t.pc == 0x300 && t.fault == record .memoryOutOfBounds 0xF155 0x1000) = true := by decide
/-- V73. -/
theorem test_loadRegs : ran 0xF265 (stored 0x400 [7, 8, 9] (base.setI 0x400)) (fun t =>
    t.getV 0 == 7 && t.getV 1 == 8 && t.getV 2 == 9 && t.getV 3 == 0 && t.i == 0x400) = true := by decide
/-- V75. -/
theorem test_loadRegs_out_of_range : ran 0xF065 ((base.setV 0 0x55).setI 0x1000) (fun t =>
    t.getV 0 == 0x55 && t.pc == 0x300 && t.fault == record .memoryOutOfBounds 0xF065 0x1000) = true := by decide
/-- V76. -/
theorem test_cls : ran 0x00E0 (lit 63 31 (lit 0 0 base)) (fun t =>
    !t.disp.pixel 0 0 && !t.disp.pixel 63 31) = true := by decide
/-- V80. -/
theorem test_drw_wraps_x : ran 0xD011 (stored 0x400 [0xC1] (((base.setV 0 0x3E)).setI 0x400)) (fun t =>
    rowOn 0 t == [5, 62, 63] && t.getV 15 == 0) = true := by decide
/-- V78. -/
theorem test_drw_collision : ran 0xD011 (lit 0 0 (lit 1 0 (stored 0x400 [0x80] (base.setI 0x400)))) (fun t =>
    rowOn 0 t == [1] && t.getV 15 == 1) = true := by decide
/-- V86. -/
theorem test_skp_pressed : ran 0xE59E (pressed 7 ((base.setV 5 7))) (fun t =>
    t.pc == 0x304) = true := by decide
/-- V90. -/
theorem test_skp_index_16 : ran 0xE59E ((base.setV 5 0x10)) (fun t =>
    t.pc == 0x300 && t.fault == record .keyIndexOutOfRange 0xE59E 0x10) = true := by decide
/-- V89. -/
theorem test_sknp_pressed : ran 0xE5A1 (pressed 7 ((base.setV 5 7))) (fun t =>
    t.pc == 0x302) = true := by decide
/-- V91. -/
theorem test_sknp_index_255 : ran 0xE5A1 ((base.setV 5 0xFF)) (fun t =>
    t.pc == 0x300 && t.fault == record .keyIndexOutOfRange 0xE5A1 0xFF) = true := by decide
/-- V92 (42 is decimal). -/
theorem test_ldVxDt : ran 0xF307 (base.setDt 42) (fun t =>
    t.getV 3 == 0x2A) = true := by decide
/-- V93. -/
theorem test_ldVxK_none : ran 0xF30A ((base.setV 3 0x77)) (fun t =>
    t.getV 3 == 0x77 && t.pc == 0x300) = true := by decide
/-- V94. -/
theorem test_ldVxK_lowest : ran 0xF30A (pressed 9 (pressed 3 (pressed 15 base))) (fun t =>
    t.getV 3 == 3 && t.pc == 0x302) = true := by decide
/-- V96. -/
theorem test_ldStVx : ran 0xF215 ((base.setV 2 3).setSt 9) (fun t =>
    t.st == 3 && t.dt == 0) = true := by decide

/-! ### The fetch at the end of memory (the notes of section 2.1) and the host's commands -/

/-- A fetch at 0xFFE succeeds. -/
theorem test_fetch_0xFFE : (match tick { base with pc := 0xFFE } with
    | .next t => t.pc == 0x1000 && t.fault.isNone
    | _ => false) = true := by decide
/-- A fetch at 0xFFF faults with address 0x1000. -/
theorem test_fetch_0xFFF : (match tick { base with pc := 0xFFF } with
    | .next t => t.fault == some ⟨.fetchOutOfBounds, 0xFFF, 0, 0x1000⟩
    | _ => false) = true := by decide
/-- A fetch at 0x10FE faults with that address. -/
theorem test_fetch_0x10FE : (match tick { base with pc := 0x10FE } with
    | .next t => t.fault == some ⟨.fetchOutOfBounds, 0x10FE, 0, 0x10FE⟩
    | _ => false) = true := by decide
/-- T3 and T4: the beep is the tick at which ST goes from 1 to 0. -/
theorem test_timerTick : (timerTick (base.setSt 1)).beepOut = some true ∧
    (timerTick ((base.setSt 2).setDt 1)).beepOut = some false ∧ (timerTick ((base.setSt 2).setDt 1)).dt = 0 ∧
    (timerTick ((base.setSt 2).setDt 1)).st = 1 := by decide
/-- H1 and H3. -/
theorem test_key : (keyCommand 5 true base).key[5] = true ∧ keyCommand 16 true base = base.setReply .keyRefused := by
  decide
/-- P1's bytes loaded. -/
theorem test_load : (loadCommand [0x60, 0x05, 0x70, 0x03] base).wordAt 0x202 = 0x7003 := by decide
/-- H6 and W3: RESET clears the fault and restores the font byte a program overwrote. -/
theorem test_reset : (resetCommand { base.writeByte 0 1 with fault := record .stackOverflow 0x2200 0 }).fault = none ∧
    (resetCommand (base.writeByte 0 1)).readByte 0 = 0xF0 := by decide
/-- The instruction placed for the next step runs as the first one after reset. -/
theorem test_withFetchWord : (match step (State.reset.withFetchWord 16 0x6A5C) with
    | .next t => t.getV 10 == 0x5C && t.pc == 0x202
    | _ => false) = true := by decide

/-! ### Witnesses: a concrete state for the hypotheses of each statement, clause by clause

A theorem `witness_<Statement>…` shows that the hypotheses of that statement can be met together. -/

theorem witness_DecodeOfEncodeIsTheInstruction : wellFormed (.drw 15 15 15) = true := by decide
theorem witness_EncodeOfDecodeIsTheWord : decodeWord 0xFF65 = some (.loadRegs 15) := by decide
theorem witness_DecodingIsExactPatternMatching : decodeWord 0x8FFE = some (.shl 15 15) ∧ decodeWord 0x8FFF = none := by
  decide
/-- Each disjunct of the unrecognised set holds of some word, and so does the last clause's premise. -/
theorem witness_UnrecognisedSetIsExactlyThis :
    decodeWord 0x0001 = none ∧ decodeWord 0x5001 = none ∧ decodeWord 0x9FFF = none ∧ decodeWord 0x800D = none ∧
    decodeWord 0xE0FF = none ∧ decodeWord 0xF066 = none ∧ (0xDFFF#16).toNat / 4096 ∈ [1, 2, 3, 4, 6, 7, 10, 11, 12, 13] := by
  decide

/-- `JP 0x234` at the last fetchable address. -/
def lastWord : State := stored 0xFFE [0x12, 0x34] { base with pc := 0xFFE }

theorem witness_StepRunsTheDecodedInstruction :
    lastWord.fault = none ∧ lastWord.pc.toNat ≤ 0xFFE ∧
    decodeWord (BitVec.ofNat 16 ((lastWord.readByte lastWord.pc.toNat).toNat * 256 +
      (lastWord.readByte (lastWord.pc.toNat + 1)).toNat)) = some (.jp 0x234) ∧
    lastWord.inbox = [] ∧ ({ lastWord with inbox := [.step 7, .reset] } : State).inbox = .step 7 :: [.reset] := by
  decide
theorem witness_StepRunsTheHostsNextCommand :
    ({ base with inbox := [.timerTick] } : State).inbox = .timerTick :: [] := by decide

/-- An unrecognised word at the last fetchable address. -/
def lastUnrecognised : State := stored 0xFFE [0xF0, 0x18] { base with pc := 0xFFE }

theorem witness_UnrecognisedWordIsASilentNoOp :
    lastUnrecognised.fault = none ∧ lastUnrecognised.pc.toNat ≤ 0xFFE ∧
    decodeWord (lastUnrecognised.wordAt lastUnrecognised.pc.toNat) = none := by decide
/-- The fetch's clauses at 0xFFE, at 0xFFF and at 0x1000. -/
theorem witness_FetchReadsTwoBytesOrFaults :
    lastWord.pc.toNat + 1 ≤ 0xFFF ∧
    (({ base with pc := 0xFFF } : State).fault = none ∧ ({ base with pc := 0xFFF } : State).pc.toNat + 1 > 0xFFF) ∧
    (({ base with pc := 0x1000 } : State).fault = none ∧ ({ base with pc := 0x1000 } : State).pc.toNat > 0xFFF) := by
  decide

/-- A halted core. -/
def halted : State := { base with fault := some ⟨.fetchOutOfBounds, 0x1000, 0, 0x1000⟩, pc := 0x1000 }

theorem witness_RecordedFaultHaltsTheCore :
    halted.fault = some ⟨.fetchOutOfBounds, 0x1000, 0, 0x1000⟩ ∧
    (Command.timerTick ≠ .reset ∧ ∀ r, Command.timerTick ≠ .step r) ∧
    ∃ t, runCommand (.key 3 true) halted = .next t :=
  ⟨rfl, ⟨by decide, fun _ h => by cases h⟩, _, rfl⟩
theorem witness_FaultsAreExactlyTheListedOnes : base.fault = none := by decide

/-- `RET` on an empty stack. -/
def emptyReturn : State := stored 0x300 [0x00, 0xEE] base

/-- A tick whose instruction faults, and one whose fetch does. -/
theorem witness_FaultsArePrecise :
    (emptyReturn.fault = none ∧ ∃ t f, tick emptyReturn = .next t ∧ t.fault = some f ∧ f.kind ≠ .fetchOutOfBounds) ∧
    (base.fault = none ∧ ∃ t f, tick { base with pc := 0xFFF } = .next t ∧ t.fault = some f ∧
      f.kind = .fetchOutOfBounds) :=
  ⟨⟨rfl, _, _, rfl, rfl, by decide⟩, ⟨rfl, _, _, rfl, rfl, rfl⟩⟩

theorem witness_MemoryStaysCanonical : lastWord.MemCanonical ∧ ∃ t, step lastWord = .next t := ⟨by decide, _, rfl⟩
/-- The bound of PC is reached. -/
theorem witness_PcAndStackStayBounded :
    ({ base with pc := 0x10FE } : State).PcBounded ∧ ∃ t, step { base with pc := 0x10FE } = .next t :=
  ⟨by decide, _, rfl⟩
theorem witness_FaultRecordStaysCoherent :
    (halted.FaultCoherent ∧ ∃ t, step halted = .next t) ∧ emptyReturn.FaultCoherent ∧ ∃ t, step emptyReturn = .next t :=
  ⟨⟨rfl, _, rfl⟩, trivial, _, rfl⟩

theorem witness_BeepIsAOneShot : (timerTick^[2 + 1] (base.setSt 3)).beepOut = some true := by decide
theorem witness_KeyOutOfRangeIsRefused : 15 < 16 := by decide
/-- H4 and H5: 3584 bytes fit, 3585 do not. -/
theorem witness_LoadWritesTheProgramOrNothing :
    0x200 + (List.replicate 3584 (0 : Byte)).length ≤ 4096 ∧ 0x200 + (List.replicate 3585 (0 : Byte)).length > 4096 := by
  simp only [List.length_replicate]; decide

theorem witness_NopAndJumpsSetPc :
    ({ base with pc := 0xFFE } : State).fault = none ∧ ({ base with pc := 0xFFE } : State).pc.toNat ≤ 0xFFE ∧
    ({ base with pc := 0xFFE } : State).wordAt ({ base with pc := 0xFFE } : State).pc.toNat = 0 := by decide
theorem witness_SkipsCompareRegisters :
    ((base.setV 5 7).setV 6 7).getV 5 = ((base.setV 5 7).setV 6 7).getV 6 ∧ (base.setV 5 7).getV 5 ≠ base.getV 6 ∧
    (base.setV 5 7).getV 5 = 7 ∧ base.getV 5 ≠ 7 := by decide
/-- The last free entry, and the full stack. -/
theorem witness_CallPushesTheReturnAddress :
    ({ base with sp := 15 } : State).sp.val < 16 ∧ ({ base with sp := 16 } : State).sp.val = 16 ∧
    (15 : Fin 16).val = ({ base with sp := 15 } : State).sp.val ∧
    (0 : Fin 16).val ≠ ({ base with sp := 15 } : State).sp.val := by decide
theorem witness_ReturnPopsTheReturnAddress :
    returning.sp.val ≠ 0 ∧ base.sp.val = 0 ∧ (0 : Fin 16).val = returning.sp.val - 1 := by decide
theorem witness_ReturnUndoesCall :
    ({ base with sp := 15 } : State).sp.val < 16 ∧ (0 : Fin 16).val ≠ ({ base with sp := 15 } : State).sp.val := by decide

/-- The draw named by the host, as in vector V52. -/
theorem witness_RandomByteIsMaskedIntoVx : ({ base with rnd := some 0xAB } : State).rnd = some 0xAB := by decide
/-- X is not F, another register is neither, for the frame of the flag instructions. -/
theorem witness_flagInstructions : (1 : Reg) ≠ 15 ∧ (2 : Reg) ≠ 1 ∧ (2 : Reg) ≠ 15 := by decide

/-- The last I that `FX33` accepts, the first it does not, and addresses beside the stored bytes. -/
theorem witness_BcdStoresThreeDigits :
    (base.setI 0xFFD).i.toNat + 2 ≤ 0xFFF ∧ (base.setI 0xFFE).i.toNat + 2 > 0xFFF ∧
    0xFFC < (base.setI 0xFFD).i.toNat ∧ (base.setI 0xFFD).i.toNat + 2 < 0x1000 := by decide
/-- I + X = 0xFFF and 0x1000, with a register stored and an address beside the stored bytes. -/
theorem witness_StoreWritesV0ToVx :
    (base.setI 0xFF0).i.toNat + (15 : Reg).val ≤ 0xFFF ∧ (base.setI 0xFF1).i.toNat + (15 : Reg).val > 0xFFF ∧
    (15 : Reg) ≤ 15 ∧ 0xFEF < (base.setI 0xFF0).i.toNat ∧ (base.setI 0xFF0).i.toNat + (15 : Reg).val < 0x1000 := by
  decide
theorem witness_LoadReadsV0ToVx :
    (base.setI 0xFFE).i.toNat + (1 : Reg).val ≤ 0xFFF ∧ (base.setI 0xFFF).i.toNat + (1 : Reg).val > 0xFFF ∧
    (1 : Reg) ≤ 1 ∧ (1 : Reg) < 2 := by decide
theorem witness_LoadAfterStoreBringsRegistersBack :
    (base.setI 0xFF1).i.toNat + (14 : Reg).val ≤ 0xFFF ∧ (14 : Reg) ≤ 14 ∧ (14 : Reg) < 15 := by decide
theorem witness_StoredCodeIsFetched :
    (base.setI 0x300).i.toNat + (1 : Reg).val ≤ 0xFFF ∧ (1 : Reg) ≤ 1 ∧ (1 : Reg).val = (0 : Reg).val + 1 ∧
    (base.setI 0x300).pc.toNat = (base.setI 0x300).i.toNat + (0 : Reg).val := by decide

/-- A one-row sprite at the last byte of memory, on a display with one of its pixels ON. -/
def sprite : State := lit 0 0 (stored 0xFFF [0xC0] (base.setI 0xFFF))

/-- The height 0 with I out of memory, the sprite that ends at 0xFFF, and the one that would end at 0x1000. -/
theorem witness_DrawXorsTheSprite_range :
    (0 ≤ 15 ∧ ((0 : Nat) = 0 ∨ (base.setI 0xFFFF).i.toNat + 0 - 1 ≤ 0xFFF)) ∧
    (1 ≤ 15 ∧ ((1 : Nat) = 0 ∨ sprite.i.toNat + 1 - 1 ≤ 0xFFF)) ∧
    (2 ≤ 15 ∧ 1 ≤ 2 ∧ sprite.i.toNat + 2 - 1 > 0xFFF) := by decide
/-- Column 1 of the sprite is on pixel (1, 0). -/
theorem witness_DrawXorsTheSprite_on : SpriteOn sprite 0 1 1 1 0 :=
  ⟨0, 1, by decide, by decide, by decide, by decide, by decide⟩
/-- Row 5 has no cell of a one-row sprite drawn at row 0. -/
theorem witness_DrawXorsTheSprite_off : ¬ SpriteOn sprite 0 1 1 1 5 := by
  rintro ⟨r, c, hr, -, -, hy, -⟩
  obtain rfl : r = 0 := by omega
  revert hy; decide
/-- The draw turns pixel (0, 0) from ON to OFF; with a blank display it turns none. -/
theorem witness_DrawXorsTheSprite_collision :
    (∃ t, exec (.drw 0 1 1) sprite = .next t ∧ sprite.disp.pixel 0 0 = true ∧ t.disp.pixel 0 0 = false) ∧
    ∃ t, exec (.drw 0 1 1) (base.setI 0x400) = .next t ∧
      ¬ ∃ px py, (base.setI 0x400).disp.pixel px py = true ∧ t.disp.pixel px py = false :=
  ⟨⟨_, rfl, by decide, by decide⟩, _, rfl, by
    rintro ⟨px, py, h, -⟩
    simp [base, State.setI, State.reset, Screen.pixel] at h⟩
theorem witness_DrawTwiceRestoresTheDisplay :
    1 ≤ 15 ∧ (0 : Reg) ≠ 15 ∧ (1 : Reg) ≠ 15 ∧ ((1 : Nat) = 0 ∨ sprite.i.toNat + 1 - 1 ≤ 0xFFF) := by decide

theorem witness_KeySkipsReadOneKey :
    ((base.setV 5 15).getV 5).toNat = (15 : Fin 16).val ∧ ((base.setV 5 16).getV 5).toNat > 15 := by decide

/-- Keys 3 and 15 pressed: the lowest is 3. -/
theorem witness_KeyWaitTakesTheLowestKey_pressed :
    (pressed 3 (pressed 15 base)).key[3] = true ∧
    ∀ j : Fin 16, j < 3 → (pressed 3 (pressed 15 base)).key[j] = false := by decide
/-- `LD V3, K` at 0x300 with no key pressed. -/
theorem witness_KeyWaitTakesTheLowestKey_none :
    (∀ k : Fin 16, (stored 0x300 [0xF3, 0x0A] base).key[k] = false) ∧ (stored 0x300 [0xF3, 0x0A] base).fault = none ∧
    (stored 0x300 [0xF3, 0x0A] base).pc.toNat ≤ 0xFFE ∧
    decodeWord ((stored 0x300 [0xF3, 0x0A] base).wordAt (stored 0x300 [0xF3, 0x0A] base).pc.toNat) =
      some (.ldVxK 3) := by decide

theorem witness_OnlyListedInstructionsWriteRegisters :
    ∃ t, exec (.addReg 1 2) ((base.setV 1 0xFF).setV 2 1) = .next t ∧
      t.getV 15 ≠ ((base.setV 1 0xFF).setV 2 1).getV 15 := ⟨_, rfl, by decide⟩
/-- Each component is changed by some instruction, and PC is loaded without a fault. -/
theorem witness_EachComponentHasItsWriters_registers :
    (∃ t, exec (.ldB 0) ((base.setV 0 255).setI 0x400) = .next t ∧
      ∃ a, t.readByte a ≠ ((base.setV 0 255).setI 0x400).readByte a) ∧
    (∃ t, exec (.call 0x400) base = .next t ∧ t.stack ≠ base.stack ∧ t.sp ≠ base.sp ∧ t.fault = none ∧ t.pc ≠ base.pc) ∧
    (∃ t, exec (.ldI 0x400) base = .next t ∧ t.i ≠ base.i) ∧
    (∃ t, exec (.ldStVx 0) (base.setV 0 3) = .next t ∧ t.st ≠ (base.setV 0 3).st) :=
  ⟨⟨_, rfl, 0x400, by decide⟩, ⟨_, rfl, by decide, by decide, rfl, by decide⟩, ⟨_, rfl, by decide⟩, _, rfl, by decide⟩
theorem witness_EachComponentHasItsWriters_displayAndDraws :
    (∃ t, exec .cls (lit 0 0 base) = .next t ∧ t.disp ≠ (lit 0 0 base).disp) ∧
    ∃ t, exec (.rnd 0 0) base = .next t ∧ t.draws ≠ base.draws :=
  ⟨⟨_, rfl, fun h => absurd (congrArg (Screen.pixel · 0 0) h) (by decide)⟩, _, rfl, by decide⟩
theorem witness_RandomByteReachesOnlyRnd :
    (∀ x nn, Instr.nop ≠ .rnd x nn) ∧ ∃ t, exec .nop base = .next t := ⟨nofun, _, rfl⟩
theorem witness_NoInstructionReadsSt : ∃ t, exec (.ldVxDt 0) base = .next t := ⟨_, rfl⟩
/-- The jump to itself at 0x200. -/
theorem witness_ParkedMachineStays : (stored 0x200 [0x12, 0x00] { base with pc := 0x200 }).Parked := by decide

/-! ### The host's record -/

/-- The record the host builds on is this machine's. -/
theorem test_core : core.reset = State.reset := rfl

end Sys2Proof.Tests
end

section
/-!
PROOFS of the family 10_state.md. What a tick and a step can do, said once (`tick_cases`, `step_cases`); which part of the
state each instruction's effect writes (`EffectFrame`); when the execute phase faults, and with what record
(`exec_fault_or_effect`). The obligations follow from these.
-/

namespace Sys2Proof.Machine

open Sys2Proof.Claims

/-! ### What a tick, a command and a step can do -/

/-- A fetch past memory records 0x1000 from 0xFFF, and PC from any higher address (R42). -/
theorem fetch_error_max {s : State} (h : 0xFFE < s.pc.toNat) :
    fetch s = .error ⟨.fetchOutOfBounds, trunc16 (max s.pc.toNat 0x1000)⟩ := by
  rw [fetch_error h]
  by_cases hpc : 0xFFF < s.pc.toNat
  · rw [if_pos hpc, max_eq_left hpc, trunc16, BitVec.ofNat_toNat, BitVec.setWidth_eq]
  · rw [if_neg hpc, show s.pc.toNat = 0xFFF by omega]; rfl

/-- A STEP on a halted core does nothing; otherwise the fetch faults, or an unrecognised word is passed over, or the
decoded instruction is executed with PC advanced by 2 (R121). -/
theorem tick_cases {s t : State} (h : tick s = .next t) :
    (s.fault ≠ none ∧ t = s) ∨
    (s.fault = none ∧ 0xFFE < s.pc.toNat ∧
      t = s.raise s.pc 0 ⟨.fetchOutOfBounds, trunc16 (max s.pc.toNat 0x1000)⟩) ∨
    (s.fault = none ∧ s.pc.toNat ≤ 0xFFE ∧ decodeWord (s.wordAt s.pc.toNat) = none ∧ t = s.setPc (s.pc + 2)) ∨
    (s.fault = none ∧ s.pc.toNat ≤ 0xFFE ∧
      ∃ ins, decodeWord (s.wordAt s.pc.toNat) = some ins ∧ exec ins (s.setPc (s.pc + 2)) = .next t) := by
  unfold tick at h
  cases hf : s.fault with
  | some f =>
    rw [hf] at h
    injection h with h
    exact .inl ⟨nofun, h.symm⟩
  | none =>
    rw [hf] at h
    by_cases hpc : s.pc.toNat ≤ 0xFFE
    · simp only [fetch_ok hpc] at h
      cases hd : decodeWord (s.wordAt s.pc.toNat) with
      | none =>
        rw [hd] at h
        injection h with h
        exact .inr (.inr (.inl ⟨rfl, hpc, rfl, h.symm⟩))
      | some ins =>
        rw [hd] at h
        exact .inr (.inr (.inr ⟨rfl, hpc, ins, rfl, h⟩))
    · rw [fetch_error_max (by omega)] at h
      injection h with h
      exact .inr (.inl ⟨rfl, by omega, h.symm⟩)

/-- A command is a STEP or a RESET, or it leaves all but memory, the timers, the keys and the reply as it was (R29). -/
theorem runCommand_cases {c : Command} {s t : State} (h : runCommand c s = .next t) :
    tick s = .next t ∨ t = resetCommand s ∨
      t = { s with mem := t.mem, dt := t.dt, st := t.st, key := t.key, reply := t.reply } := by
  cases c with
  | step r => exact .inl h
  | reset => injection h with h; exact .inr (.inl h.symm)
  | timerTick => injection h with h; subst h; exact .inr (.inr rfl)
  | load data =>
    injection h with h
    subst h
    refine .inr (.inr ?_)
    unfold loadCommand
    split
    · rw [State.writeBytes_only_mem]; rfl
    · rfl
  | key k p =>
    injection h with h
    subst h
    refine .inr (.inr ?_)
    unfold keyCommand
    split <;> rfl

/-- A step takes a command and ticks, or resets, or leaves all but memory, the timers, the keys and the model's own fields
as it was. -/
theorem step_cases {s t : State} (h : step s = .next t) :
    (∃ rest r, tick (s.take rest r) = .next t) ∨ (∃ rest r, t = resetCommand (s.take rest r)) ∨
      t = { s with
        mem := t.mem, dt := t.dt, st := t.st, key := t.key, inbox := t.inbox, rnd := t.rnd, reply := t.reply } := by
  unfold step nextCommand at h
  cases hi : s.inbox with
  | nil => rw [hi] at h; exact .inl ⟨_, _, h⟩
  | cons c rest =>
    rw [hi] at h
    rcases runCommand_cases h with ht | hr | hframe
    · exact .inl ⟨_, _, ht⟩
    · exact .inr (.inl ⟨_, _, hr⟩)
    · refine .inr (.inr ?_)
      rw [hframe]
      rfl

/-! ### The part of the state an instruction's effect writes -/

/-- `t` is `s` outside of the components that the rules let the instruction write (R16 to R25, R33). -/
def EffectFrame (ins : Instr) (s t : State) : Prop :=
  match ins with
  | .nop => t = s
  | .cls => t = { s with disp := t.disp }
  | .drw _ _ _ => t = { s with disp := t.disp, v := t.v }
  | .call _ => t = { s with stack := t.stack, sp := t.sp, pc := t.pc }
  | .ret => t = { s with sp := t.sp, pc := t.pc }
  | .jp _ | .jpV0 _ | .seImm _ _ | .sneImm _ _ | .seReg _ _ | .sneReg _ _ | .skp _ | .sknp _ =>
    t = { s with pc := t.pc }
  | .ldVxK _ => t = { s with v := t.v, pc := t.pc }
  | .ldB _ | .storeRegs _ => t = { s with mem := t.mem }
  | .ldI _ | .addI _ | .ldF _ => t = { s with i := t.i }
  | .ldStVx _ => t = { s with st := t.st }
  | .rnd _ _ => t = { s with v := t.v, draws := t.draws }
  | _ => t = { s with v := t.v }

/-- A skip writes PC only. -/
theorem State.skipIf_only_pc (s : State) (c : Bool) : s.skipIf c = { s with pc := (s.skipIf c).pc } := by
  cases c <;> rfl

/-- An instruction's effect writes its components only. -/
theorem Effect.frame {ins : Instr} {s t : State} (h : Effect ins s t) : EffectFrame ins s t := by
  cases ins with
  | nop | cls | jp n | jpV0 n | ldStVx x | rnd x n =>
    cases h
    rfl
  | call n | ret | drw x y n | ldI n | addI x | ldF x =>
    obtain ⟨_, rfl⟩ := h
    rfl
  | ldImm x n | addImm x n | ldReg x y | orReg x y | andReg x y | xorReg x y | ldVxDt x =>
    obtain ⟨_, rfl⟩ := h
    rfl
  | loadRegs x =>
    obtain ⟨_, _, rfl⟩ := h
    rfl
  | addReg x y | subReg x y | subnReg x y | shr x y | shl x y =>
    obtain ⟨_, _, rfl⟩ := h
    rfl
  | seImm x n | sneImm x n | seReg x y | sneReg x y | skp x | sknp x =>
    obtain ⟨c, rfl⟩ := h
    exact s.skipIf_only_pc c
  | ldB x | storeRegs x =>
    obtain ⟨bs, _, rfl⟩ := h
    exact State.writeBytes_only_mem _ bs s
  | ldVxK x =>
    rcases h with ⟨_, _, rfl⟩ | rfl
    · rfl
    · rfl

namespace EffectFrame

variable {ins : Instr} {s t : State}

/-- The components no instruction writes. -/
theorem unwritten (h : EffectFrame ins s t) :
    t.dt = s.dt ∧ t.key = s.key ∧ t.font = s.font ∧ t.inbox = s.inbox ∧ t.rnd = s.rnd ∧ t.reply = s.reply := by
  cases ins <;> (rw [h]; exact ⟨rfl, rfl, rfl, rfl, rfl, rfl⟩)

/-- An effect records no fault. -/
theorem fault_eq (h : EffectFrame ins s t) : t.fault = s.fault := by
  cases ins <;> exact (congrArg State.fault h :)

theorem mem_writers (h : EffectFrame ins s t) {a : Nat} (hne : t.readByte a ≠ s.readByte a) :
    (∃ x, ins = .ldB x) ∨ ∃ x, ins = .storeRegs x := by
  cases ins with
  | ldB x => exact .inl ⟨x, rfl⟩
  | storeRegs x => exact .inr ⟨x, rfl⟩
  | _ => exact absurd (congrArg (State.readByte · a) h) hne

theorem stack_writers (h : EffectFrame ins s t) (hne : t.stack ≠ s.stack) : ∃ nnn, ins = .call nnn := by
  cases ins with
  | call n => exact ⟨n, rfl⟩
  | _ => exact absurd (congrArg State.stack h) hne

theorem sp_writers (h : EffectFrame ins s t) (hne : t.sp ≠ s.sp) : (∃ nnn, ins = .call nnn) ∨ ins = .ret := by
  cases ins with
  | call n => exact .inl ⟨n, rfl⟩
  | ret => exact .inr rfl
  | _ => exact absurd (congrArg State.sp h) hne

theorem i_writers (h : EffectFrame ins s t) (hne : t.i ≠ s.i) :
    (∃ nnn, ins = .ldI nnn) ∨ (∃ x, ins = .addI x) ∨ ∃ x, ins = .ldF x := by
  cases ins with
  | ldI n => exact .inl ⟨n, rfl⟩
  | addI x => exact .inr (.inl ⟨x, rfl⟩)
  | ldF x => exact .inr (.inr ⟨x, rfl⟩)
  | _ => exact absurd (congrArg State.i h) hne

theorem st_writers (h : EffectFrame ins s t) (hne : t.st ≠ s.st) : ∃ x, ins = .ldStVx x := by
  cases ins with
  | ldStVx x => exact ⟨x, rfl⟩
  | _ => exact absurd (congrArg State.st h) hne

theorem disp_writers (h : EffectFrame ins s t) (hne : t.disp ≠ s.disp) : ins = .cls ∨ ∃ x y n, ins = .drw x y n := by
  cases ins with
  | cls => exact .inl rfl
  | drw x y n => exact .inr ⟨x, y, n, rfl⟩
  | _ => exact absurd (congrArg State.disp h) hne

theorem draws_writers (h : EffectFrame ins s t) (hne : t.draws ≠ s.draws) : ∃ x nn, ins = .rnd x nn := by
  cases ins with
  | rnd x nn => exact ⟨x, nn, rfl⟩
  | _ => exact absurd (congrArg State.draws h) hne

theorem pc_writers (h : EffectFrame ins s t) (hne : t.pc ≠ s.pc) : writesPc ins = true := by
  cases ins with
  | jp _ | call _ | ret | jpV0 _ | seImm _ _ | sneImm _ _ | seReg _ _ | sneReg _ _ | skp _ | sknp _ | ldVxK _ => rfl
  | _ => exact absurd (congrArg State.pc h) hne

end EffectFrame

/-! ### The registers an instruction's effect writes -/

/-- A register that a write to VX changed is VX. -/
theorem State.eq_of_getV_setV_ne {s : State} {x k : Reg} {b : Byte} (h : (s.setV x b).getV k ≠ s.getV k) : k = x := by
  by_contra hk
  rw [State.getV_setV, if_neg (Ne.symm hk)] at h
  exact h rfl

/-- A register that a flag instruction's writes changed is VX or VF. -/
theorem State.eq_or_eq_regF_of_getV_setResultAndFlag_ne {s : State} {x k : Reg} {b f : Byte}
    (h : (s.setResultAndFlag x b f).getV k ≠ s.getV k) : k = x ∨ k = 15 := by
  by_contra hk
  rw [not_or] at hk
  obtain ⟨hx, hf⟩ := hk
  rw [State.getV_setResultAndFlag, if_neg (show ¬ k = regF from hf), if_neg hx] at h
  exact h rfl

/-- A register that an ascending load of X + 1 bytes changed is at most VX. -/
theorem State.le_of_getV_setVs_putRegs_ne {s : State} {x k : Reg} {bs : List Byte} (hbs : bs.length = x.val + 1)
    (h : (s.setVs (putRegs 0 bs s.v)).getV k ≠ s.getV k) : k ≤ x := by
  by_contra hk
  refine h ?_
  show (putRegs 0 bs s.v)[k.val] = s.v[k.val]
  rw [putRegs_getElem, dif_neg (by rw [Fin.le_def] at hk; omega)]

/-- The first pressed key is pressed. -/
theorem State.key_of_firstKey_eq_some {s : State} {k : Fin 16} (h : s.firstKey = some k) : s.key[k] = true := by
  simpa using List.find?_some h

/-- An effect changes only the registers listed for the instruction (R16, R17). -/
theorem Effect.writesReg_of_getV_ne {ins : Instr} {s t : State} {k : Reg} (h : Effect ins s t) (hne : t.getV k ≠ s.getV k) :
    writesReg ins s k := by
  cases ins with
  | ldImm x n | addImm x n | ldReg x y | orReg x y | andReg x y | xorReg x y | ldVxDt x =>
    obtain ⟨b, rfl⟩ := h
    exact State.eq_of_getV_setV_ne hne
  | addReg x y | subReg x y | subnReg x y | shr x y | shl x y =>
    obtain ⟨b, f, rfl⟩ := h
    exact State.eq_or_eq_regF_of_getV_setResultAndFlag_ne hne
  | rnd x n =>
    cases h
    exact State.eq_of_getV_setV_ne (b := s.draw8 &&& n) hne
  | drw x y n =>
    obtain ⟨r, rfl⟩ := h
    exact State.eq_of_getV_setV_ne (s := s.setDisp r.1) hne
  | ldVxK x =>
    rcases h with ⟨j, hj, rfl⟩ | rfl
    · exact ⟨State.eq_of_getV_setV_ne hne, j, State.key_of_firstKey_eq_some hj⟩
    · exact absurd rfl hne
  | loadRegs x =>
    obtain ⟨bs, hbs, rfl⟩ := h
    exact State.le_of_getV_setVs_putRegs_ne hbs hne
  | _ => exact absurd (congrArg (State.getV · k) h.frame) hne

/-! ### Bounds of PC and the stack (R19) -/

/-- A 12-bit address keeps its value. -/
@[simp] theorem zextAddr_toNat (a : Addr12) : (zextAddr a).toNat = a.toNat := by
  have := a.isLt
  simp only [zextAddr, BitVec.toNat_ofNat]
  omega

/-- A byte keeps its value. -/
@[simp] theorem zextByte_toNat (b : Byte) : (zextByte b).toNat = b.toNat := by
  have := b.isLt
  simp only [zextByte, BitVec.toNat_ofNat]
  omega

/-- The bounds of the execute phase, where PC is a fetched instruction's address + 2 (R12, R19). -/
structure State.PostFetch (s : State) : Prop where
  two_le_pc : 2 ≤ s.pc.toNat
  pc_le : s.pc.toNat ≤ 0x1000
  stack_le : ∀ k : Fin 16, (s.stack[k]).toNat ≤ 0x1000

namespace State.PostFetch

variable {s : State}

/-- The bounds after a fetch. -/
theorem of_fetch (hs : s.PcBounded) (hpc : s.pc.toNat ≤ 0xFFE) : (s.setPc (s.pc + 2)).PostFetch where
  two_le_pc := by rw [State.setPc_pc]; bv_omega
  pc_le := by rw [State.setPc_pc]; bv_omega
  stack_le := hs.2

/-- The address of the instruction being executed. -/
theorem sub_two_le (hs : s.PostFetch) : (s.pc - 2).toNat ≤ 0xFFE := by
  obtain ⟨h2, hpc, -⟩ := hs
  bv_omega

/-- A state with PC in its bound and the stack as it was is bounded. -/
theorem pcBounded_of_stack_eq {t : State} (hs : s.PostFetch) (hpc : t.pc.toNat ≤ 0x10FE) (hst : t.stack = s.stack) :
    t.PcBounded :=
  ⟨hpc, hst ▸ hs.stack_le⟩

/-- The return address pushed by a CALL is a post-fetch PC. -/
theorem push_le (hs : s.PostFetch) (h : s.sp.val < 16) (k : Fin 16) :
    ((s.stack.set s.sp.val s.pc h)[k]).toNat ≤ 0x1000 := by
  rw [Fin.getElem_fin, Vector.getElem_set]
  split
  · exact hs.pc_le
  · exact hs.stack_le k

/-- A skip ends at most at 0x1002. -/
theorem skipIf_pcBounded (hs : s.PostFetch) (c : Bool) : (s.skipIf c).PcBounded := by
  refine hs.pcBounded_of_stack_eq ?_ (s.skipIf_stack c)
  have := hs.pc_le
  cases c with
  | true => rw [State.skipIf_pc, if_pos rfl]; bv_omega
  | false => rw [State.skipIf_pc, if_neg nofun]; omega

end State.PostFetch

/-- An effect begun after a fetch leaves PC and the stack in their bounds; `BNNN` reaches 0xFFF + 0xFF. -/
theorem Effect.pcBounded {ins : Instr} {s t : State} (h : Effect ins s t) (hs : s.PostFetch) : t.PcBounded := by
  have hpc := hs.pc_le
  cases ins with
  | jp n =>
    cases h
    have := n.isLt
    exact hs.pcBounded_of_stack_eq (by rw [State.setPc_pc, zextAddr_toNat]; omega) rfl
  | jpV0 n =>
    cases h
    have := n.isLt
    have := (s.getV 0).isLt
    refine hs.pcBounded_of_stack_eq ?_ rfl
    rw [State.setPc_pc, BitVec.toNat_add, zextAddr_toNat, zextByte_toNat]
    omega
  | seImm x n | sneImm x n | seReg x y | sneReg x y | skp x | sknp x =>
    obtain ⟨c, rfl⟩ := h
    exact hs.skipIf_pcBounded c
  | call n =>
    obtain ⟨hsp, rfl⟩ := h
    have := n.isLt
    exact ⟨show (zextAddr n).toNat ≤ 0x10FE by rw [zextAddr_toNat]; omega, hs.push_le hsp⟩
  | ret =>
    obtain ⟨hsp, rfl⟩ := h
    have := hs.stack_le ⟨s.sp.val - 1, by omega⟩
    exact hs.pcBounded_of_stack_eq (Nat.le_trans this (by decide)) rfl
  | ldVxK x =>
    rcases h with ⟨_, _, rfl⟩ | rfl
    · exact hs.pcBounded_of_stack_eq (Nat.le_trans hpc (by decide)) rfl
    · exact hs.pcBounded_of_stack_eq (Nat.le_trans hs.sub_two_le (by decide)) rfl
  | _ =>
    have hp : t.pc = s.pc := by_contra fun hne => Bool.false_ne_true (h.frame.pc_writers hne)
    have hst : t.stack = s.stack := by_contra fun hne => nomatch h.frame.stack_writers hne
    exact hs.pcBounded_of_stack_eq (by rw [hp]; omega) hst

/-- The execute phase, faulting or not, leaves PC and the stack in their bounds. -/
theorem exec_pcBounded {ins : Instr} {s t : State} (h : exec ins s = .next t) (hs : s.PostFetch) : t.PcBounded := by
  rcases exec_cases ins s t h with ⟨m, rfl⟩ | he
  · exact hs.pcBounded_of_stack_eq (Nat.le_trans hs.sub_two_le (by decide)) rfl
  · exact he.pcBounded hs

theorem tick_pcBounded {s t : State} (hs : s.PcBounded) (h : tick s = .next t) : t.PcBounded := by
  rcases tick_cases h with ⟨-, rfl⟩ | ⟨-, -, rfl⟩ | ⟨-, hpc, -, rfl⟩ | ⟨-, hpc, ins, -, he⟩
  · exact hs
  · exact hs
  · have hf := State.PostFetch.of_fetch hs hpc
    exact hf.pcBounded_of_stack_eq (Nat.le_trans hf.pc_le (by decide)) rfl
  · exact exec_pcBounded he (.of_fetch hs hpc)

theorem reset_pcBounded : State.reset.PcBounded := by decide

/-! ### When the execute phase faults -/

/-- The execute phase takes the fault that the instruction's row of R108 gives, or, where the row gives none, has the
instruction's effect. -/
theorem exec_fault_or_effect {ins : Instr} {s t : State} (h : exec ins s = .next t) :
    (∃ k a, faultOf ins s = some (k, a) ∧ t = s.raise (s.pc - 2) (encode ins) ⟨k, trunc16 a⟩) ∨
    (faultOf ins s = none ∧ Effect ins s t) := by
  cases ins with
  | drw x y n =>
    simp only [exec, execDrw] at h
    by_cases hc : 1 ≤ n ∧ s.i.toNat + n - 1 > 0xFFF
    · rw [checkedRead_error (by omega) (by omega)] at h
      injection h with h
      exact .inl ⟨_, _, if_pos hc, h.symm⟩
    · rw [checkedRead_ok (by omega)] at h
      injection h with h
      exact .inr ⟨if_neg hc, _, h.symm⟩
  | ldB x =>
    simp only [exec, execLdB] at h
    have hlen : (bcdDigits (s.getV x)).length = 3 := rfl
    by_cases hc : s.i.toNat + 2 > 0xFFF
    · rw [checkedWrite_error (by omega) (by omega)] at h
      injection h with h
      exact .inl ⟨_, _, if_pos hc, h.symm⟩
    · have hfit : s.i.toNat + (bcdDigits (s.getV x)).length ≤ 4096 := by omega
      rw [checkedWrite_ok hfit] at h
      injection h with h
      exact .inr ⟨if_neg hc, _, hfit, h.symm⟩
  | storeRegs x =>
    simp only [exec, execStoreRegs] at h
    have hlen := s.lowRegs_length x
    by_cases hc : s.i.toNat + x.val > 0xFFF
    · rw [checkedWrite_error (by omega) (by omega)] at h
      injection h with h
      exact .inl ⟨_, _, if_pos hc, h.symm⟩
    · have hfit : s.i.toNat + (s.lowRegs x).length ≤ 4096 := by omega
      rw [checkedWrite_ok hfit] at h
      injection h with h
      exact .inr ⟨if_neg hc, _, hfit, h.symm⟩
  | loadRegs x =>
    simp only [exec, execLoadRegs] at h
    by_cases hc : s.i.toNat + x.val > 0xFFF
    · rw [checkedRead_error (by omega) (by omega)] at h
      injection h with h
      exact .inl ⟨_, _, if_pos hc, h.symm⟩
    · rw [checkedRead_ok (by omega)] at h
      injection h with h
      exact .inr ⟨if_neg hc, _, by simp, h.symm⟩
  | call n =>
    simp only [exec, execCall] at h
    by_cases hc : s.sp.val = 16
    · rw [push_error _ hc] at h
      injection h with h
      exact .inl ⟨_, _, if_pos hc, h.symm⟩
    · rw [push_ok _ (by omega)] at h
      injection h with h
      exact .inr ⟨if_neg hc, by omega, h.symm⟩
  | ret =>
    simp only [exec, execRet] at h
    by_cases hc : s.sp.val = 0
    · rw [pop_error hc] at h
      injection h with h
      exact .inl ⟨_, _, if_pos hc, h.symm⟩
    · rw [pop_ok hc] at h
      injection h with h
      exact .inr ⟨if_neg hc, hc, h.symm⟩
  | skp x =>
    simp only [exec, execSkp] at h
    by_cases hc : (s.getV x).toNat > 15
    · rw [checkedKey_error hc] at h
      injection h with h
      exact .inl ⟨_, _, if_pos hc, h.symm⟩
    · rw [checkedKey_ok (by omega)] at h
      injection h with h
      exact .inr ⟨if_neg hc, _, h.symm⟩
  | sknp x =>
    simp only [exec, execSknp] at h
    by_cases hc : (s.getV x).toNat > 15
    · rw [checkedKey_error hc] at h
      injection h with h
      exact .inl ⟨_, _, if_pos hc, h.symm⟩
    · rw [checkedKey_ok (by omega)] at h
      injection h with h
      exact .inr ⟨if_neg hc, _, h.symm⟩
  | ldVxK x =>
    simp only [exec, execLdVxK] at h
    cases hk : s.firstKey with
    | some k =>
      rw [hk] at h
      injection h with h
      exact .inr ⟨rfl, .inl ⟨k, hk, h.symm⟩⟩
    | none =>
      rw [hk] at h
      injection h with h
      exact .inr ⟨rfl, .inr h.symm⟩
  | nop | cls | jp n | jpV0 n | rnd x n | ldStVx x =>
    injection h with h
    exact .inr ⟨rfl, h.symm⟩
  | seImm x n | sneImm x n | seReg x y | sneReg x y | ldI n | addI x | ldF x =>
    injection h with h
    exact .inr ⟨rfl, _, h.symm⟩
  | ldImm x n | addImm x n | ldReg x y | orReg x y | andReg x y | xorReg x y | ldVxDt x =>
    injection h with h
    exact .inr ⟨rfl, _, h.symm⟩
  | addReg x y | subReg x y | subnReg x y | shr x y | shl x y =>
    injection h with h
    exact .inr ⟨rfl, _, _, h.symm⟩

/-! ### Coherence of the fault record (R26, R27, R109) -/

theorem State.faultCoherent_of_none {s : State} (h : s.fault = none) : s.FaultCoherent := by
  unfold State.FaultCoherent
  rw [h]
  trivial

/-- Coherence speaks of the record and PC only. -/
theorem State.FaultCoherent.congr {s t : State} (hs : s.FaultCoherent) (hf : t.fault = s.fault) (hpc : t.pc = s.pc) :
    t.FaultCoherent := by
  unfold State.FaultCoherent
  rw [hf, hpc]
  exact hs

/-- The record of a fetch fault: opcode 0 and the first address out of memory. -/
theorem coherent_fetchOutOfBounds {pc : Word} (hpc : 0xFFE < pc.toNat) :
    FaultRecord.coherent ⟨.fetchOutOfBounds, pc, 0, trunc16 (max pc.toNat 0x1000)⟩ pc = true := by
  have := pc.isLt
  simp only [FaultRecord.coherent, beq_self_eq_true, Bool.true_and, Bool.and_eq_true, decide_eq_true_eq, trunc16,
    BitVec.toNat_ofNat]
  exact ⟨hpc, by omega⟩

/-- The record of a memory fault of an access from `i` up: an address past memory. -/
theorem coherent_memoryOutOfBounds {op : Word} (pc i : Word) (hop : raisedBy op = some .memoryOutOfBounds) :
    FaultRecord.coherent ⟨.memoryOutOfBounds, pc, op, trunc16 (max i.toNat 0x1000)⟩ pc = true := by
  have := i.isLt
  simp only [FaultRecord.coherent, beq_self_eq_true, Bool.true_and, hop, decide_eq_true_eq, trunc16,
    BitVec.toNat_ofNat]
  omega

/-- The record of a key index above 15: the byte that VX holds. -/
theorem coherent_keyIndexOutOfRange {op : Word} (pc : Word) {b : Byte} (hb : 15 < b.toNat)
    (hop : raisedBy op = some .keyIndexOutOfRange) :
    FaultRecord.coherent ⟨.keyIndexOutOfRange, pc, op, trunc16 b.toNat⟩ pc = true := by
  have := b.isLt
  simp only [FaultRecord.coherent, beq_self_eq_true, Bool.true_and, hop, Bool.and_eq_true, decide_eq_true_eq, trunc16,
    BitVec.toNat_ofNat]
  omega

theorem digit1_eq (op : Word) : digit1 op = op.toNat / 4096 := by
  have := op.isLt
  simp only [digit1, bits]
  omega

/-- Every word 2NNN may overflow the stack. -/
theorem raisedBy_of_top_two {op : Word} (h : op.toNat / 4096 = 2) : raisedBy op = some .stackOverflow := by
  simp only [raisedBy, decodeWord, digit1_eq, h]

/-- Every word DXYN may access memory out of bounds. -/
theorem raisedBy_of_top_thirteen {op : Word} (h : op.toNat / 4096 = 13) : raisedBy op = some .memoryOutOfBounds := by
  simp only [raisedBy, decodeWord, digit1_eq, h]

/-- The encodings of the faulting instructions with one register operand raise the kind of R108. -/
theorem raisedBy_encode_of_reg : ∀ x : Reg,
    raisedBy (encode (.ldB x)) = some .memoryOutOfBounds ∧ raisedBy (encode (.storeRegs x)) = some .memoryOutOfBounds ∧
    raisedBy (encode (.loadRegs x)) = some .memoryOutOfBounds ∧ raisedBy (encode (.skp x)) = some .keyIndexOutOfRange ∧
    raisedBy (encode (.sknp x)) = some .keyIndexOutOfRange := by
  decide

/-- The record of an instruction's fault in the table of R108 is coherent. -/
theorem coherent_of_faultOf {ins : Instr} {s : State} {k : FaultKind} {a : Nat} (h : faultOf ins s = some (k, a))
    (pc : Word) : FaultRecord.coherent ⟨k, pc, encode ins, trunc16 a⟩ pc = true := by
  cases ins with
  | drw x y n =>
    obtain ⟨-, ⟨⟩⟩ := Option.ite_none_right_eq_some.mp h
    exact coherent_memoryOutOfBounds pc s.i
      (raisedBy_of_top_thirteen (Laws.PatternFits.encodeXYN_top 13 (by decide) x y n))
  | ldB x =>
    obtain ⟨-, ⟨⟩⟩ := Option.ite_none_right_eq_some.mp h
    obtain ⟨hop, -⟩ := raisedBy_encode_of_reg x
    exact coherent_memoryOutOfBounds pc s.i hop
  | storeRegs x =>
    obtain ⟨-, ⟨⟩⟩ := Option.ite_none_right_eq_some.mp h
    obtain ⟨-, hop, -⟩ := raisedBy_encode_of_reg x
    exact coherent_memoryOutOfBounds pc s.i hop
  | loadRegs x =>
    obtain ⟨-, ⟨⟩⟩ := Option.ite_none_right_eq_some.mp h
    obtain ⟨-, -, hop, -⟩ := raisedBy_encode_of_reg x
    exact coherent_memoryOutOfBounds pc s.i hop
  | call n =>
    obtain ⟨-, ⟨⟩⟩ := Option.ite_none_right_eq_some.mp h
    have hop := raisedBy_of_top_two (Laws.PatternFits.encodeNNN_top 2 (by decide) n)
    simp [FaultRecord.coherent, encode, hop, trunc16]
  | ret =>
    obtain ⟨-, ⟨⟩⟩ := Option.ite_none_right_eq_some.mp h
    have hop : raisedBy (encode .ret) = some .stackUnderflow := by decide
    simp [FaultRecord.coherent, hop, trunc16]
  | skp x =>
    obtain ⟨hx, ⟨⟩⟩ := Option.ite_none_right_eq_some.mp h
    obtain ⟨-, -, -, hop, -⟩ := raisedBy_encode_of_reg x
    exact coherent_keyIndexOutOfRange pc hx hop
  | sknp x =>
    obtain ⟨hx, ⟨⟩⟩ := Option.ite_none_right_eq_some.mp h
    obtain ⟨-, -, -, -, hop⟩ := raisedBy_encode_of_reg x
    exact coherent_keyIndexOutOfRange pc hx hop
  | _ => cases h

/-- The execute phase begun without a fault leaves the record coherent. -/
theorem exec_faultCoherent {ins : Instr} {s t : State} (hs : s.fault = none) (h : exec ins s = .next t) :
    t.FaultCoherent := by
  rcases exec_fault_or_effect h with ⟨k, a, hk, rfl⟩ | ⟨-, he⟩
  · exact coherent_of_faultOf hk (s.pc - 2)
  · exact State.faultCoherent_of_none (he.frame.fault_eq.trans hs)

theorem tick_faultCoherent {s t : State} (hs : s.FaultCoherent) (h : tick s = .next t) : t.FaultCoherent := by
  rcases tick_cases h with ⟨-, rfl⟩ | ⟨-, hpc, rfl⟩ | ⟨hf, -, -, rfl⟩ | ⟨hf, -, ins, -, he⟩
  · exact hs
  · exact coherent_fetchOutOfBounds hpc
  · exact State.faultCoherent_of_none hf
  · exact exec_faultCoherent (s := s.setPc (s.pc + 2)) hf he

/-! ### ST is read by no instruction (R23) -/

/-- A block of stores leaves ST alone and does not read it. -/
theorem State.writeBytes_setSt (a : Nat) (bs : List Byte) (s : State) (b : Byte) :
    State.writeBytes a bs (s.setSt b) = (State.writeBytes a bs s).setSt b := by
  induction bs generalizing a s with
  | nil => rfl
  | cons c bs ih => exact ih (a + 1) (s.writeByte a c)

theorem checkedRead_setSt (a n : Nat) (s : State) (b : Byte) : checkedRead a n (s.setSt b) = checkedRead a n s := by
  by_cases h : n = 0 ∨ a + n ≤ 4096
  · rw [checkedRead_ok h, checkedRead_ok h]; rfl
  · rw [checkedRead_error (by omega) (by omega), checkedRead_error (by omega) (by omega)]

theorem checkedWrite_setSt (a : Nat) (bs : List Byte) (s : State) (b : Byte) :
    checkedWrite a bs (s.setSt b) = (checkedWrite a bs s).map (·.setSt b) := by
  by_cases h : a + bs.length ≤ 4096
  · rw [checkedWrite_ok h, checkedWrite_ok h, State.writeBytes_setSt]; rfl
  · by_cases hn : bs.length = 0
    · obtain rfl := List.length_eq_zero_iff.mp hn
      rfl
    · rw [checkedWrite_error hn (by omega), checkedWrite_error hn (by omega)]; rfl

theorem State.skipIf_setSt (s : State) (c : Bool) (b : Byte) : (s.setSt b).skipIf c = (s.skipIf c).setSt b := by
  cases c <;> rfl

@[simp] theorem State.getV_setSt (s : State) (b : Byte) (x : Reg) : (s.setSt b).getV x = s.getV x := rfl

theorem push_setSt (w : Word) (s : State) (b : Byte) : push w (s.setSt b) = (push w s).map (·.setSt b) := by
  by_cases h : s.sp.val < 16
  · rw [push_ok w h, push_ok (s := s.setSt b) w h]; rfl
  · have hsp : s.sp.val = 16 := by omega
    rw [push_error w hsp, push_error (s := s.setSt b) w hsp]; rfl

theorem pop_setSt (s : State) (b : Byte) : pop (s.setSt b) = (pop s).map fun p => (p.1, p.2.setSt b) := by
  by_cases h : s.sp.val = 0
  · rw [pop_error h, pop_error (s := s.setSt b) h]; rfl
  · rw [pop_ok h, pop_ok (s := s.setSt b) h]; rfl

theorem checkedKey_setSt (k : Nat) (s : State) (b : Byte) : checkedKey k (s.setSt b) = checkedKey k s := rfl

/-- The end of an instruction passes a changed ST on, with a fault or without. -/
theorem finish_setSt {ins : Instr} {s t : State} {r : Except MachineFault State} (b : Byte)
    (h : finish ins s r = .next t) : finish ins (s.setSt b) (r.map (·.setSt b)) = .next (t.setSt b) := by
  cases r with
  | error f => cases h; rfl
  | ok u => cases h; rfl

/-- Every instruction but `FX15` runs in the same way whatever ST is, and leaves it. -/
theorem exec_setSt {ins : Instr} {s t : State} (b : Byte) (hins : ∀ x, ins ≠ .ldStVx x) (h : exec ins s = .next t) :
    exec ins (s.setSt b) = .next (t.setSt b) := by
  cases ins with
  | ldStVx x => exact absurd rfl (hins x)
  | ldB x =>
    simp only [exec, execLdB, State.setSt_i, State.getV_setSt, checkedWrite_setSt] at h ⊢
    exact finish_setSt b h
  | storeRegs x =>
    have hregs : (s.setSt b).lowRegs x = s.lowRegs x := rfl
    simp only [exec, execStoreRegs, State.setSt_i, hregs, checkedWrite_setSt] at h ⊢
    exact finish_setSt b h
  | drw x y n =>
    simp only [exec, execDrw, State.setSt_i, checkedRead_setSt] at h ⊢
    cases hr : checkedRead s.i.toNat n s <;> rw [hr] at h <;> exact finish_setSt b h
  | loadRegs x =>
    simp only [exec, execLoadRegs, State.setSt_i, checkedRead_setSt] at h ⊢
    cases hr : checkedRead s.i.toNat (x.val + 1) s <;> rw [hr] at h <;> exact finish_setSt b h
  | call n =>
    simp only [exec, execCall, State.setSt_pc, push_setSt] at h ⊢
    cases hr : push s.pc s <;> rw [hr] at h <;> exact finish_setSt b h
  | ret =>
    simp only [exec, execRet, pop_setSt] at h ⊢
    cases hr : pop s <;> rw [hr] at h <;> exact finish_setSt b h
  | skp x =>
    simp only [exec, execSkp, State.getV_setSt, checkedKey_setSt] at h ⊢
    cases hr : checkedKey (s.getV x).toNat s <;> rw [hr] at h <;> simp only [State.skipIf_setSt] <;>
      exact finish_setSt b h
  | sknp x =>
    simp only [exec, execSknp, State.getV_setSt, checkedKey_setSt] at h ⊢
    cases hr : checkedKey (s.getV x).toNat s <;> rw [hr] at h <;> simp only [State.skipIf_setSt] <;>
      exact finish_setSt b h
  | ldVxK x =>
    have hkey : (s.setSt b).firstKey = s.firstKey := rfl
    simp only [exec, execLdVxK, hkey] at h ⊢
    cases hk : s.firstKey with
    | some k => rw [hk] at h; cases h; rfl
    | none => rw [hk] at h; cases h; rfl
  | seImm x n | sneImm x n | seReg x y | sneReg x y =>
    cases h
    exact congrArg _ (s.skipIf_setSt _ b)
  | _ =>
    cases h
    rfl

end Sys2Proof.Machine

/-! ### The obligations -/

namespace Sys2Proof.Claims

open Sys2Proof.Machine

/-- Settles O7: the step takes the head of the inbox and runs it. -/
theorem stepRunsTheHostsNextCommand : Obligations.StepRunsTheHostsNextCommand := by
  intro s c rest hinbox
  unfold step nextCommand
  rw [hinbox]
  rfl

/-- Settles O14: memory has no entry, PC is 0x200, the stack entries are 0, and no fault is recorded. -/
theorem resetMeetsTheInvariants : Obligations.ResetMeetsTheInvariants :=
  ⟨State.reset_mem_wf, reset_pcBounded, State.faultCoherent_of_none rfl⟩

/-- Settles O16: a STEP keeps the bounds (`tick_pcBounded`), RESET establishes them, and no other command touches PC or
the stack. -/
theorem pcAndStackStayBounded : Obligations.PcAndStackStayBounded := by
  intro s t hs h
  rcases step_cases h with ⟨rest, r, ht⟩ | ⟨rest, r, rfl⟩ | hframe
  · exact tick_pcBounded (s := s.take rest r) hs ht
  · exact reset_pcBounded
  · rw [hframe]
    exact hs

/-- Settles O17: the record of a STEP's fault is coherent (`tick_faultCoherent`), RESET clears it, and no other command
touches it or PC. -/
theorem faultRecordStaysCoherent : Obligations.FaultRecordStaysCoherent := by
  intro s t hs h
  rcases step_cases h with ⟨rest, r, ht⟩ | ⟨rest, r, rfl⟩ | hframe
  · exact tick_faultCoherent (s := s.take rest r) hs ht
  · exact State.faultCoherent_of_none rfl
  · rw [hframe]
    exact hs

/-- Settles O49: a fault changes no register, and an effect only the listed ones. -/
theorem onlyListedInstructionsWriteRegisters : Obligations.OnlyListedInstructionsWriteRegisters := by
  intro ins s t k h hne
  rcases exec_cases ins s t h with ⟨m, rfl⟩ | he
  · exact absurd rfl hne
  · exact he.writesReg_of_getV_ne hne

/-- Settles O50: a fault changes PC and the record alone, and an effect only the instruction's components
(`EffectFrame`). -/
theorem eachComponentHasItsWriters : Obligations.EachComponentHasItsWriters := by
  intro ins s t h
  rcases exec_cases ins s t h with ⟨m, rfl⟩ | he
  · exact ⟨⟨rfl, rfl, rfl, rfl, rfl, rfl⟩, fun ⟨_, hne⟩ => absurd rfl hne, absurd rfl, absurd rfl, absurd rfl,
      absurd rfl, absurd rfl, absurd rfl, nofun⟩
  · have hf := he.frame
    exact ⟨hf.unwritten, fun ⟨_, hne⟩ => hf.mem_writers hne, hf.stack_writers, hf.sp_writers, hf.i_writers,
      hf.st_writers, hf.disp_writers, hf.draws_writers, fun _ => hf.pc_writers⟩

/-- Settles O52: `FX15` overwrites ST, and every other instruction passes it on unread (`exec_setSt`). -/
theorem noInstructionReadsSt : Obligations.NoInstructionReadsSt := by
  intro ins s t b h
  by_cases hins : ∃ x, ins = .ldStVx x
  · obtain ⟨x, rfl⟩ := hins
    cases h
    exact ⟨_, rfl, rfl⟩
  · exact ⟨t.setSt b, exec_setSt b (not_exists.mp hins) h, rfl⟩

end Sys2Proof.Claims
end

section
/-!
PROOFS of the family 20_memory.md. What the writers of memory do, said once: LOAD (R55, R56), `FX55` (R96) and the fetch
that faults (R42). Memory's canonical form is kept by every effect, hence by every tick, command and step.
-/

namespace Sys2Proof.Machine

/-! ### LOAD, the stored registers and the fetched word -/

/-- LOAD of a program that fits (R55). -/
theorem loadCommand_fits {data : List Byte} (s : State) (h : 0x200 + data.length ≤ 4096) :
    loadCommand data s = (State.writeBytes 0x200 data s).setReply .loadOk := if_pos h

/-- LOAD of a program that does not fit (R56). -/
theorem loadCommand_overflow {data : List Byte} (s : State) (h : ¬ 0x200 + data.length ≤ 4096) :
    loadCommand data s = s.setReply .loadOverflow := if_neg h

@[simp] theorem State.readByte_setReply (s : State) (r : Reply) (a : Nat) : (s.setReply r).readByte a = s.readByte a :=
  rfl

/-- The k-th byte of a block of stores. -/
theorem State.readByte_writeBytes_add {bs : List Byte} (a : Nat) (s : State) {k : Nat} (hk : k < bs.length) :
    (State.writeBytes a bs s).readByte (a + k) = bs[k] := by
  rw [State.readByte_writeBytes, dif_pos ⟨by omega, by omega⟩]
  simp only [Nat.add_sub_cancel_left]

/-- An address beside a block of stores. -/
theorem State.readByte_writeBytes_outside {a : Nat} {bs : List Byte} (s : State) {c : Nat}
    (hc : c < a ∨ a + bs.length ≤ c) : (State.writeBytes a bs s).readByte c = s.readByte c := by
  rw [State.readByte_writeBytes, dif_neg (by omega)]

@[simp] theorem State.writeBytes_pc (a : Nat) (bs : List Byte) (s : State) : (State.writeBytes a bs s).pc = s.pc := by
  rw [State.writeBytes_only_mem]; rfl

/-- `FX55` inside memory stores V0..VX from I up (R96). -/
theorem exec_storeRegs_ok {s : State} {x : Reg} (h : s.i.toNat + x.val ≤ 0xFFF) :
    exec (.storeRegs x) s = .next (State.writeBytes s.i.toNat (s.lowRegs x) s) := by
  have hfit : s.i.toNat + (s.lowRegs x).length ≤ 4096 := by rw [State.lowRegs_length]; omega
  simp only [exec, execStoreRegs, checkedWrite_ok hfit, finish_ok]

/-- The byte `FX55` stores for Vk, k at most X. -/
theorem State.readByte_writeBytes_lowRegs (a : Nat) (s : State) {x k : Reg} (hk : k ≤ x) :
    (State.writeBytes a (s.lowRegs x) s).readByte (a + k.val) = s.getV k := by
  have hlen : k.val < (s.lowRegs x).length := by
    rw [State.lowRegs_length]
    exact Nat.lt_succ_of_le hk
  rw [State.readByte_writeBytes_add a s hlen, State.lowRegs_getElem]

/-- The word two bytes form is big-endian, with no wrap (R40). -/
theorem wordOfBytes_toNat (hi lo : Byte) : (wordOfBytes hi lo).toNat = hi.toNat * 256 + lo.toNat := by
  have := hi.isLt
  have := lo.isLt
  simp only [wordOfBytes, BitVec.toNat_ofNat]
  omega

/-- A tick that cannot fetch records the fault at PC with opcode 0 (R42, R109). -/
theorem tick_fetch_error {s : State} (hf : s.fault = none) (hpc : 0xFFE < s.pc.toNat) :
    tick s = .next (s.raise s.pc 0 ⟨.fetchOutOfBounds, trunc16 (max s.pc.toNat 0x1000)⟩) := by
  unfold tick
  rw [hf, fetch_error_max hpc]

/-! ### Memory's canonical form (log 7) -/

/-- An effect keeps the canonical form: `FX33` and `FX55` store inside memory, no other instruction writes memory. -/
theorem Effect.memCanonical {ins : Instr} {s t : State} (h : Effect ins s t) (hs : s.MemCanonical) :
    t.MemCanonical := by
  cases ins with
  | ldB x | storeRegs x =>
    obtain ⟨bs, hfit, rfl⟩ := h
    exact State.writeBytes_wf hfit hs
  | _ =>
    have hframe := h.frame
    rw [hframe]
    exact hs

/-- The execute phase keeps the canonical form: a fault leaves memory alone (R109). -/
theorem exec_memCanonical {ins : Instr} {s t : State} (hs : s.MemCanonical) (h : exec ins s = .next t) :
    t.MemCanonical := by
  rcases exec_cases ins s t h with ⟨m, rfl⟩ | he
  · exact hs
  · exact he.memCanonical hs

theorem tick_memCanonical {s t : State} (hs : s.MemCanonical) (h : tick s = .next t) : t.MemCanonical := by
  rcases tick_cases h with ⟨-, rfl⟩ | ⟨-, -, rfl⟩ | ⟨-, -, -, rfl⟩ | ⟨-, -, ins, -, he⟩
  · exact hs
  · exact hs
  · exact hs
  · exact exec_memCanonical (s := s.setPc (s.pc + 2)) hs he

/-- LOAD stores inside memory or nothing (R55, R56). -/
theorem loadCommand_memCanonical {s : State} (data : List Byte) (hs : s.MemCanonical) :
    (loadCommand data s).MemCanonical := by
  by_cases hfit : 0x200 + data.length ≤ 4096
  · rw [loadCommand_fits s hfit]
    exact State.writeBytes_wf hfit hs
  · rw [loadCommand_overflow s hfit]
    exact hs

/-- Every command keeps the canonical form: RESET empties the list, TIMER_TICK and KEY leave memory alone. -/
theorem runCommand_memCanonical {c : Command} {s t : State} (hs : s.MemCanonical) (h : runCommand c s = .next t) :
    t.MemCanonical := by
  cases c with
  | step r => exact tick_memCanonical hs h
  | reset => cases h; rfl
  | load data => cases h; exact loadCommand_memCanonical data hs
  | timerTick => cases h; exact hs
  | key k p =>
    cases h
    unfold keyCommand
    split
    · exact hs
    · exact hs

/-- A step is a command run on the state it was taken from; with none listed, a STEP whose draw is free (log 3). -/
theorem step_eq_runCommand (s : State) : ∃ c rest r, step s = runCommand c (s.take rest r) := by
  unfold step nextCommand
  cases s.inbox with
  | nil => exact ⟨.step 0, [], none, rfl⟩
  | cons c rest => exact ⟨c, rest, c.rndArg, rfl⟩

end Sys2Proof.Machine

/-! ### The obligations -/

namespace Sys2Proof.Claims

open Sys2Proof.Machine

/-- Settles O15: a step runs one command, and every command keeps the canonical form (`runCommand_memCanonical`). -/
theorem memoryStaysCanonical : Obligations.MemoryStaysCanonical := by
  intro s t hs h
  obtain ⟨c, rest, r, hstep⟩ := step_eq_runCommand s
  exact runCommand_memCanonical (s := s.take rest r) hs (hstep ▸ h)

/-- Settles O23: LOAD is a block of stores from 0x200 up, or only its answer. -/
theorem loadWritesTheProgramOrNothing : Obligations.LoadWritesTheProgramOrNothing := by
  intro s data
  refine ⟨fun hfit => ⟨(State.writeBytes 0x200 data s).setReply .loadOk, ?_, rfl, fun k hk => ?_, fun a ha => ?_, ?_⟩,
    fun hover => ?_⟩
  · exact congrArg _ (loadCommand_fits s hfit)
  · rw [State.readByte_setReply, State.readByte_writeBytes_add 0x200 s hk]
  · rw [State.readByte_setReply, State.readByte_writeBytes_outside s ha]
  · rw [State.writeBytes_only_mem]; rfl
  · exact congrArg _ (loadCommand_overflow s (by omega))

/-- Settles O42: the two bytes at PC are the ones `FX55` stored for Vk and the register after it. -/
theorem storedCodeIsFetched : Obligations.StoredCodeIsFetched := by
  intro s x k k' hi hk' hnext hpc
  have hk : k ≤ x := by
    rw [Fin.le_def] at hk' ⊢
    omega
  have hlast : (State.writeBytes s.i.toNat (s.lowRegs x) s).pc.toNat ≤ 0xFFE := by
    rw [State.writeBytes_pc]
    rw [Fin.le_def] at hk'
    omega
  have hword : (State.writeBytes s.i.toNat (s.lowRegs x) s).wordAt s.pc.toNat = wordOfBytes (s.getV k) (s.getV k') := by
    rw [State.wordAt, hpc, Nat.add_assoc, ← hnext, State.readByte_writeBytes_lowRegs _ s hk,
      State.readByte_writeBytes_lowRegs _ s hk']
  have hfetch := fetch_ok hlast
  rw [State.writeBytes_pc, hword] at hfetch
  exact ⟨_, _, exec_storeRegs_ok hi, hfetch⟩

/-- Settles O9: `fetch_ok` inside memory, `tick_fetch_error` past it. -/
theorem fetchReadsTwoBytesOrFaults : Obligations.FetchReadsTwoBytesOrFaults := by
  refine fun s => ⟨fun hpc => ⟨_, _, fetch_ok (by omega), wordOfBytes_toNat _ _, ?_, rfl, fun _ => rfl⟩,
    fun hf hpc => ⟨_, tick_fetch_error hf (by omega), rfl, rfl, rfl, ?_⟩⟩
  · rw [State.setPc_pc]
    bv_omega
  · have := s.pc.isLt
    simp only [trunc16, BitVec.toNat_ofNat]
    split <;> omega

end Sys2Proof.Claims
end

section
/-!
PROOFS of the family 30_encoding.md. What the fields of a word are (R58), and how the three formats of R59 are put
together from them and taken apart again; each part of the decoder against the encoder (R61, R68), and the words it has no
instruction for (R65); the rows of the opcode table read as digits (R62). The obligations follow from these.
-/

namespace Sys2Proof

/-! ### The fields of a word (R58), as quotients and remainders -/

theorem digit1_eq_div (op : Word) : digit1 op = op.toNat / 4096 := Nat.mod_eq_of_lt (by have := op.isLt; omega)

theorem digit4_eq_mod (op : Word) : digit4 op = op.toNat % 16 := by simp [digit4, bits]

theorem fieldX_val (op : Word) : (fieldX op).val = op.toNat / 256 % 16 := by simp [fieldX, digit2, bits]

theorem fieldY_val (op : Word) : (fieldY op).val = op.toNat / 16 % 16 := by simp [fieldY, digit3, bits]

theorem fieldNN_toNat (op : Word) : (fieldNN op).toNat = op.toNat % 256 := by simp [fieldNN, bits]

theorem fieldNNN_toNat (op : Word) : (fieldNNN op).toNat = op.toNat % 4096 := by simp [fieldNNN, bits]

theorem digit1_lt (op : Word) : digit1 op < 16 := Nat.mod_lt _ (by decide)

theorem digit4_lt (op : Word) : digit4 op < 16 := Nat.mod_lt _ (by decide)

/-! ### The formats of R59, as sums of their fields -/

section Formats

variable {d n : Nat} {x y : Reg} {k : Byte} {a : Addr12}

theorem encodeNNN_toNat (hd : d < 16) : (encodeNNN d a).toNat = d * 4096 + a.toNat := by
  simp only [encodeNNN, BitVec.toNat_ofNat]
  omega

theorem encodeXNN_toNat (hd : d < 16) : (encodeXNN d x k).toNat = d * 4096 + x.val * 256 + k.toNat := by
  simp only [encodeXNN, BitVec.toNat_ofNat]
  omega

theorem encodeXYN_toNat (hd : d < 16) :
    (encodeXYN d x y n).toNat = d * 4096 + x.val * 256 + y.val * 16 + n % 16 := by
  simp only [encodeXYN, BitVec.toNat_ofNat]
  omega

/-! The fields of a word put together. -/

@[simp] theorem digit1_encodeNNN (hd : d < 16) : digit1 (encodeNNN d a) = d := by
  rw [digit1_eq_div, encodeNNN_toNat hd]; omega

@[simp] theorem fieldNNN_encodeNNN (hd : d < 16) : fieldNNN (encodeNNN d a) = a :=
  BitVec.eq_of_toNat_eq (by rw [fieldNNN_toNat, encodeNNN_toNat hd]; omega)

@[simp] theorem digit1_encodeXNN (hd : d < 16) : digit1 (encodeXNN d x k) = d := by
  rw [digit1_eq_div, encodeXNN_toNat hd]; omega

@[simp] theorem fieldX_encodeXNN (hd : d < 16) : fieldX (encodeXNN d x k) = x :=
  Fin.ext (by rw [fieldX_val, encodeXNN_toNat hd]; omega)

@[simp] theorem fieldNN_encodeXNN (hd : d < 16) : fieldNN (encodeXNN d x k) = k :=
  BitVec.eq_of_toNat_eq (by rw [fieldNN_toNat, encodeXNN_toNat hd]; omega)

@[simp] theorem digit1_encodeXYN (hd : d < 16) : digit1 (encodeXYN d x y n) = d := by
  rw [digit1_eq_div, encodeXYN_toNat hd]; omega

@[simp] theorem fieldX_encodeXYN (hd : d < 16) : fieldX (encodeXYN d x y n) = x :=
  Fin.ext (by rw [fieldX_val, encodeXYN_toNat hd]; omega)

@[simp] theorem fieldY_encodeXYN (hd : d < 16) : fieldY (encodeXYN d x y n) = y :=
  Fin.ext (by rw [fieldY_val, encodeXYN_toNat hd]; omega)

@[simp] theorem digit4_encodeXYN (hd : d < 16) : digit4 (encodeXYN d x y n) = n % 16 := by
  rw [digit4_eq_mod, encodeXYN_toNat hd]; omega

end Formats

/-! The word taken apart and put together again. -/

theorem encodeNNN_fields (op : Word) : encodeNNN (digit1 op) (fieldNNN op) = op := by
  apply BitVec.eq_of_toNat_eq
  rw [encodeNNN_toNat (digit1_lt op), digit1_eq_div, fieldNNN_toNat]
  omega

theorem encodeXNN_fields (op : Word) : encodeXNN (digit1 op) (fieldX op) (fieldNN op) = op := by
  apply BitVec.eq_of_toNat_eq
  rw [encodeXNN_toNat (digit1_lt op), digit1_eq_div, fieldX_val, fieldNN_toNat]
  omega

theorem encodeXYN_fields (op : Word) : encodeXYN (digit1 op) (fieldX op) (fieldY op) (digit4 op) = op := by
  apply BitVec.eq_of_toNat_eq
  rw [encodeXYN_toNat (digit1_lt op), digit1_eq_div, fieldX_val, fieldY_val, digit4_eq_mod]
  omega

/-! ### Decoding an encoded instruction (R68) -/

/-- Decoding takes the fields of the word, which are the instruction's operands: one case a format. -/
theorem decodeWord_encode {ins : Instr} (h : wellFormed ins = true) : decodeWord (encode ins) = some ins := by
  cases ins with
  | nop | cls | ret => decide
  | jp a | call a | ldI a | jpV0 a => simp [encode, decodeWord]
  | seImm x k | sneImm x k | ldImm x k | addImm x k | rnd x k => simp [encode, decodeWord]
  | seReg x y | sneReg x y => simp [encode, decodeWord]
  | ldReg x y | orReg x y | andReg x y | xorReg x y | addReg x y | subReg x y | shr x y | subnReg x y | shl x y =>
    simp [encode, decodeWord, decodeAlu]
  | drw x y n =>
    have hn : n < 16 := of_decide_eq_true h
    simp [encode, decodeWord, Nat.mod_eq_of_lt hn]
  | skp x | sknp x => simp [encode, decodeWord, decodeKey]
  | ldVxDt x | ldVxK x | ldStVx x | addI x | ldF x | ldB x | storeRegs x | loadRegs x =>
    simp [encode, decodeWord, decodeMisc]

/-- The two bytes of a word form the word (R40). -/
theorem wordOfBytes_bytesOfWord (op : Word) :
    wordOfBytes (BitVec.ofNat 8 (op.toNat / 256)) (BitVec.ofNat 8 op.toNat) = op := by
  apply BitVec.eq_of_toNat_eq
  rw [Machine.wordOfBytes_toNat, BitVec.toNat_ofNat, BitVec.toNat_ofNat]
  omega

/-- Decoding the bytes of a recognised word consumes these two (R57). -/
theorem decodeBytes_bytesOfWord {op : Word} {ins : Instr} (h : decodeWord op = some ins) (rest : List Byte) :
    decodeBytes (bytesOfWord op ++ rest) = .ok (ins, rest) := by
  simp only [bytesOfWord, List.cons_append, List.nil_append, decodeBytes, wordOfBytes_bytesOfWord, h]

/-! ### Encoding a decoded instruction -/

/-- `ins` is a well-formed instruction with the encoding `op`. -/
def IsEncodingOf (op : Word) (ins : Instr) : Prop := wellFormed ins = true ∧ encode ins = op

theorem isEncodingOf_of_decodeFixed {op : Word} {ins : Instr} (h : decodeFixed op = some ins) :
    IsEncodingOf op ins := by
  unfold decodeFixed at h
  split_ifs at h <;> cases h <;> exact ⟨rfl, Eq.symm ‹_›⟩

theorem isEncodingOf_of_decodeAlu {d4 : Nat} {x y : Reg} {ins : Instr} (h : decodeAlu d4 x y = some ins) :
    IsEncodingOf (encodeXYN 8 x y d4) ins := by
  unfold decodeAlu at h
  split at h <;> cases h <;> exact ⟨rfl, rfl⟩

theorem isEncodingOf_of_decodeKey {nn : Byte} {x : Reg} {ins : Instr} (h : decodeKey nn x = some ins) :
    IsEncodingOf (encodeXNN 0xE x nn) ins := by
  unfold decodeKey at h
  split_ifs at h <;> cases h <;> subst nn <;> exact ⟨rfl, rfl⟩

theorem isEncodingOf_of_decodeMisc {nn : Byte} {x : Reg} {ins : Instr} (h : decodeMisc nn x = some ins) :
    IsEncodingOf (encodeXNN 0xF x nn) ins := by
  unfold decodeMisc at h
  split_ifs at h <;> cases h <;> subst nn <;> exact ⟨rfl, rfl⟩

/-- The decoded instruction holds the fields of the word, and the word is made of them: one case an arm of
the decoder, so that `h_9` is digit1 = 8, and `h_17` the arm no digit takes. -/
theorem isEncodingOf_of_decodeWord {op : Word} {ins : Instr} (h : decodeWord op = some ins) : IsEncodingOf op ins := by
  have hNNN := encodeNNN_fields op
  have hXNN := encodeXNN_fields op
  have hXYN := encodeXYN_fields op
  unfold decodeWord at h
  generalize digit1 op = d at h hNNN hXNN hXYN
  split at h
  case h_1 => exact isEncodingOf_of_decodeFixed h
  case h_9 => exact hXYN ▸ isEncodingOf_of_decodeAlu h
  case h_15 => exact hXNN ▸ isEncodingOf_of_decodeKey h
  case h_16 => exact hXNN ▸ isEncodingOf_of_decodeMisc h
  case h_2 | h_3 | h_11 | h_12 => cases h; exact ⟨rfl, hNNN⟩
  case h_4 | h_5 | h_7 | h_8 | h_13 => cases h; exact ⟨rfl, hXNN⟩
  case h_6 | h_10 =>
    obtain ⟨h4, hins⟩ := Option.ite_none_right_eq_some.mp h
    cases hins
    rw [h4] at hXYN
    exact ⟨rfl, hXYN⟩
  case h_14 => cases h; exact ⟨decide_eq_true (digit4_lt op), hXYN⟩
  case h_17 => cases h

/-! ### The unrecognised words (R65) -/

theorem decodeFixed_eq_none_iff {op : Word} : decodeFixed op = none ↔ op.toNat ∉ [0x000, 0x0E0, 0x0EE] := by
  unfold decodeFixed
  split_ifs <;> simp_all [← BitVec.toNat_inj]

theorem decodeAlu_eq_none_iff {d4 : Nat} (hd : d4 < 16) {x y : Reg} :
    decodeAlu d4 x y = none ↔ d4 ∈ [0x8, 0x9, 0xA, 0xB, 0xC, 0xD, 0xF] := by
  interval_cases d4 <;> simp [decodeAlu]

theorem decodeKey_eq_none_iff {nn : Byte} {x : Reg} : decodeKey nn x = none ↔ nn.toNat ∉ [0x9E, 0xA1] := by
  unfold decodeKey
  split_ifs <;> simp_all [← BitVec.toNat_inj]

theorem decodeMisc_eq_none_iff {nn : Byte} {x : Reg} :
    decodeMisc nn x = none ↔ nn.toNat ∉ [0x07, 0x0A, 0x15, 0x1E, 0x29, 0x33, 0x55, 0x65] := by
  unfold decodeMisc
  split_ifs <;> simp_all [← BitVec.toNat_inj]

/-- The unrecognised words, by their digits. -/
def Unrecognised (op : Word) : Prop :=
  (op.toNat / 4096 = 0x0 ∧ op.toNat % 4096 ∉ [0x000, 0x0E0, 0x0EE]) ∨
  ((op.toNat / 4096 = 0x5 ∨ op.toNat / 4096 = 0x9) ∧ op.toNat % 16 ≠ 0) ∨
  (op.toNat / 4096 = 0x8 ∧ op.toNat % 16 ∈ [0x8, 0x9, 0xA, 0xB, 0xC, 0xD, 0xF]) ∨
  (op.toNat / 4096 = 0xE ∧ op.toNat % 256 ∉ [0x9E, 0xA1]) ∨
  (op.toNat / 4096 = 0xF ∧ op.toNat % 256 ∉ [0x07, 0x0A, 0x15, 0x1E, 0x29, 0x33, 0x55, 0x65])

/-- The decoder has no instruction for the unrecognised words alone: one case a value of digit1. -/
theorem decodeWord_eq_none_iff (op : Word) : decodeWord op = none ↔ Unrecognised op := by
  have hd := digit1_lt op
  have hfixed : digit1 op = 0 → op.toNat % 4096 = op.toNat := by rw [digit1_eq_div]; omega
  have halu := decodeAlu_eq_none_iff (digit4_lt op) (x := fieldX op) (y := fieldY op)
  rw [Unrecognised, ← digit1_eq_div, ← digit4_eq_mod, ← fieldNN_toNat]
  unfold decodeWord
  generalize digit1 op = d at hd hfixed ⊢
  interval_cases d <;> simp [decodeFixed_eq_none_iff, hfixed, halu, decodeKey_eq_none_iff, decodeMisc_eq_none_iff]

/-! ### The rows of the opcode table (R61, R62) -/

/-- A mask of digit1 and the low `k` bits keeps these and clears the bits between. -/
theorem and_mask_div_mod {m : Word} {k : Nat} (op : Word) (hk : k ≤ 12) (hm : m.toNat = 0xF000 + (2 ^ k - 1)) :
    (op &&& m).toNat / 4096 = op.toNat / 4096 ∧ (op &&& m).toNat % 4096 = op.toNat % 2 ^ k := by
  have hpow : 2 ^ k ≤ 2 ^ 12 := Nat.pow_le_pow_right (by decide) hk
  have hpos : 0 < 2 ^ k := Nat.two_pow_pos k
  have hdiv : (0xF000 + (2 ^ k - 1)) / 2 ^ 12 = 2 ^ 4 - 1 := by omega
  have hmod : (0xF000 + (2 ^ k - 1)) % 2 ^ 12 = 2 ^ k - 1 := by omega
  rw [BitVec.toNat_and, hm, show 4096 = 2 ^ 12 from rfl, Nat.and_div_two_pow, Nat.and_mod_two_pow, hdiv, hmod,
    Nat.and_two_pow_sub_one_eq_mod, Nat.and_two_pow_sub_one_eq_mod, Nat.mod_mod_of_dvd _ (Nat.pow_dvd_pow 2 hk)]
  exact ⟨by omega, rfl⟩

/-- A row whose mask keeps digit1 and the low `k` bits fits the words that have these in common with its value. -/
theorem Pattern.fits_iff {m v op : Word} {k : Nat} (hk : k ≤ 12) (hm : m.toNat = 0xF000 + (2 ^ k - 1)) :
    (Pattern.mk m v).fits op = true ↔ op.toNat / 4096 = v.toNat / 4096 ∧ op.toNat % 2 ^ k = v.toNat % 4096 := by
  obtain ⟨hdiv, hmod⟩ := and_mask_div_mod op hk hm
  simp only [Pattern.fits, beq_iff_eq, ← BitVec.toNat_inj, ← hdiv, ← hmod]
  omega

/-- How many low bits of a word the decoder looks at beside digit1 to recognise it, by digit1 (R62). -/
def lowBits (d1 : Nat) : Nat :=
  match d1 with
  | 0x0 => 12
  | 0x5 | 0x8 | 0x9 => 4
  | 0xE | 0xF => 8
  | _ => 0

theorem lowBits_le (d1 : Nat) : lowBits d1 ≤ 12 := by
  unfold lowBits
  split <;> decide

/-- A row's mask keeps digit1 and the low bits the decoder looks at, and its value is a recognised word. -/
theorem opcodeTable_mask_value : ∀ p ∈ opcodeTable,
    p.mask.toNat = 0xF000 + (2 ^ lowBits (digit1 p.value) - 1) ∧ decodeWord p.value ≠ none := by
  decide

/-- A word that agrees with an unrecognised one in digit1 and in the low bits the decoder looks at is unrecognised. -/
theorem Unrecognised.congr {op v : Word} (h : Unrecognised op) (hdiv : op.toNat / 4096 = v.toNat / 4096)
    (hmod : op.toNat % 2 ^ lowBits (digit1 v) = v.toNat % 4096) : Unrecognised v := by
  have hlow : op.toNat % 2 ^ lowBits (digit1 v) = v.toNat % 2 ^ lowBits (digit1 v) := by
    rw [← Nat.mod_mod_of_dvd v.toNat (Nat.pow_dvd_pow 2 (lowBits_le (digit1 v))), ← Nat.mod_mod, hmod]
  unfold Unrecognised at h ⊢
  rw [digit1_eq_div] at hlow
  rw [hdiv] at h
  rcases h with ⟨h0, h⟩ | ⟨h5 | h9, h⟩ | ⟨h8, h⟩ | ⟨hE, h⟩ | ⟨hF, h⟩
  · rw [h0] at hlow; exact .inl ⟨h0, hlow ▸ h⟩
  · rw [h5] at hlow; exact .inr (.inl ⟨.inl h5, hlow ▸ h⟩)
  · rw [h9] at hlow; exact .inr (.inl ⟨.inr h9, hlow ▸ h⟩)
  · rw [h8] at hlow; exact .inr (.inr (.inl ⟨h8, hlow ▸ h⟩))
  · rw [hE] at hlow; exact .inr (.inr (.inr (.inl ⟨hE, hlow ▸ h⟩)))
  · rw [hF] at hlow; exact .inr (.inr (.inr (.inr ⟨hF, hlow ▸ h⟩)))

/-- A word that a row of the table fits is recognised (R61). -/
theorem decodeWord_ne_none_of_fits {p : Pattern} {op : Word} (hp : p ∈ opcodeTable) (hfit : p.fits op = true) :
    decodeWord op ≠ none := by
  obtain ⟨hmask, hvalue⟩ := opcodeTable_mask_value p hp
  obtain ⟨hdiv, hmod⟩ := (Pattern.fits_iff (lowBits_le _) hmask).mp hfit
  intro hnone
  have hun := (decodeWord_eq_none_iff op).mp hnone
  exact hvalue ((decodeWord_eq_none_iff _).mpr (hun.congr hdiv hmod))

theorem patternOf_mem_opcodeTable (ins : Instr) : patternOf ins ∈ opcodeTable := by
  cases ins <;> simp [patternOf, opcodeTable]

/-- Two rows overlap when their values agree on the bits both masks keep. -/
def Pattern.overlaps (p q : Pattern) : Bool := (p.value &&& q.mask) == (q.value &&& p.mask)

theorem Pattern.overlaps_of_fits {p q : Pattern} {op : Word} (hp : p.fits op = true) (hq : q.fits op = true) :
    p.overlaps q = true := by
  simp only [Pattern.fits, Pattern.overlaps, beq_iff_eq] at *
  rw [← hp, ← hq, BitVec.and_assoc, BitVec.and_assoc, BitVec.and_comm p.mask]

/-- "No two patterns of the table overlap" (R61). -/
theorem opcodeTable_pairwise_not_overlaps : opcodeTable.Pairwise fun p q => p.overlaps q = false := by
  decide

/-- At most one row fits a word: two of them would overlap. -/
theorem opcodeTable_filter_fits_length_le (op : Word) : (opcodeTable.filter fun p => p.fits op).length ≤ 1 := by
  have hpair := opcodeTable_pairwise_not_overlaps.filter fun p => p.fits op
  have hfits : ∀ p ∈ opcodeTable.filter fun p => p.fits op, p.fits op = true := fun p hp => (List.mem_filter.mp hp).2
  generalize (opcodeTable.filter fun p => p.fits op) = rows at hpair hfits ⊢
  match rows with
  | [] => exact Nat.zero_le 1
  | [_] => exact Nat.le_refl 1
  | p :: q :: _ =>
    have hov : p.overlaps q = true := Pattern.overlaps_of_fits (hfits p (by simp)) (hfits q (by simp))
    have hnov : p.overlaps q = false := List.rel_of_pairwise_cons hpair List.mem_cons_self
    exact absurd hov (Bool.eq_false_iff.mp hnov)

open Laws.PatternFits in
/-- An instruction's encoding fits its row: one lemma of the family PatternFits a constructor, in their order. -/
theorem patternOf_fits_encode (ins : Instr) : (patternOf ins).fits (encode ins) = true := by
  cases ins
  exacts [nop, cls, ret, jp _, call _, seImm _ _, sneImm _ _, seReg _ _, ldImm _ _, addImm _ _,
    ldReg _ _, orReg _ _, andReg _ _, xorReg _ _, addReg _ _, subReg _ _, shr _ _, subnReg _ _, shl _ _, sneReg _ _,
    ldI _, jpV0 _, rnd _ _, drw _ _ _, skp _, sknp _,
    ldVxDt _, ldVxK _, ldStVx _, addI _, ldF _, ldB _, storeRegs _, loadRegs _]

end Sys2Proof

/-! ### The tick of an unrecognised word -/

namespace Sys2Proof.Machine

/-- The tick of an unrecognised word is its fetch (R64). -/
theorem tick_unrecognised {s : State} (hf : s.fault = none) (hpc : s.pc.toNat ≤ 0xFFE)
    (hd : decodeWord (s.wordAt s.pc.toNat) = none) : tick s = .next (s.setPc (s.pc + 2)) := by
  unfold tick
  simp only [hf, fetch_ok hpc, hd]

end Sys2Proof.Machine

/-! ### The obligations -/

namespace Sys2Proof.Claims

open Sys2Proof.Machine

/-- Settles O1: the fields of an encoding are the operands (`decodeWord_encode`), and its bytes form the word. -/
theorem decodeOfEncodeIsTheInstruction : Obligations.DecodeOfEncodeIsTheInstruction :=
  fun _ hwf => ⟨decodeWord_encode hwf, decodeBytes_bytesOfWord (decodeWord_encode hwf)⟩

/-- Settles O2: a word is made of its fields, which the decoded instruction holds. -/
theorem encodeOfDecodeIsTheWord : Obligations.EncodeOfDecodeIsTheWord :=
  fun _ _ h => isEncodingOf_of_decodeWord h

/-- Settles O3: `decodeWord_eq_none_iff`; none of its cases has one of the digits always recognised. -/
theorem unrecognisedSetIsExactlyThis : Obligations.UnrecognisedSetIsExactlyThis := by
  refine fun op => ⟨decodeWord_eq_none_iff op, fun hd => Option.ne_none_iff_exists'.mp fun hnone => ?_⟩
  have hun := (decodeWord_eq_none_iff op).mp hnone
  simp only [List.mem_cons, List.not_mem_nil, or_false] at hd
  unfold Unrecognised at hun
  omega

/-- Settles O4: no two rows overlap, a decoded word is the encoding of its instruction and so fits its row, and a word
that fits a row decodes. -/
theorem decodingIsExactPatternMatching : Obligations.DecodingIsExactPatternMatching := by
  intro op
  have hrow : ∀ ins, decodeWord op = some ins → patternOf ins ∈ opcodeTable ∧ (patternOf ins).fits op = true := by
    intro ins h
    obtain ⟨-, rfl⟩ := isEncodingOf_of_decodeWord h
    exact ⟨patternOf_mem_opcodeTable ins, patternOf_fits_encode ins⟩
  refine ⟨opcodeTable_filter_fits_length_le op, hrow, fun hnone p hp => ?_, fun hnofit => ?_⟩
  · exact Bool.eq_false_iff.mpr fun hfit => decodeWord_ne_none_of_fits hp hfit hnone
  · refine Option.eq_none_iff_forall_ne_some.mpr fun ins h => ?_
    obtain ⟨hmem, hfit⟩ := hrow ins h
    exact Bool.eq_false_iff.mp (hnofit _ hmem) hfit

/-- Settles O5, by evaluating the decoder on the seven words. -/
theorem writtenWordsDecode : Obligations.WrittenWordsDecode := by
  unfold Obligations.WrittenWordsDecode
  decide

/-- Settles O8: the tick is the fetch alone (`tick_unrecognised`), and PC + 2 does not wrap. -/
theorem unrecognisedWordIsASilentNoOp : Obligations.UnrecognisedWordIsASilentNoOp := by
  intro s hf hpc hd
  refine ⟨_, tick_unrecognised hf hpc hd, ?_, rfl, fun _ => rfl⟩
  rw [State.setPc_pc]
  bv_omega

end Sys2Proof.Claims
end

section
/-!
PROOFS of the family 41_control_flow.md. The tick of a recognised word (R121); the execute phase of CALL (R73) and of
RET (R71), one equation a case; the frame of the instructions that load PC only, and the skips (R74 to R77). The
obligations follow from these.
-/

namespace Sys2Proof.Machine

/-- A tick with a fetchable, recognised word executes its instruction with PC advanced by 2 (R121). -/
theorem tick_recognised {s : State} {ins : Instr} (hf : s.fault = none) (hpc : s.pc.toNat ≤ 0xFFE)
    (hd : decodeWord (s.wordAt s.pc.toNat) = some ins) : tick s = exec ins (s.setPc (s.pc + 2)) := by
  unfold tick
  simp only [hf, fetch_ok hpc, hd]

/-- The target of `BNNN` does not wrap: it is at most 0x10FE (R78). -/
theorem zextAddr_add_zextByte_toNat (a : Addr12) (b : Byte) : (zextAddr a + zextByte b).toNat = a.toNat + b.toNat := by
  have := a.isLt
  have := b.isLt
  rw [BitVec.toNat_add, zextAddr_toNat, zextByte_toNat]
  omega

/-! ### The execute phase of CALL and RET -/

/-- CALL with a free entry pushes PC and jumps (R73). -/
theorem exec_call_ok {s : State} (nnn : Addr12) (h : s.sp.val < 16) :
    exec (.call nnn) s = .next
      { s with stack := s.stack.set s.sp.val s.pc h, sp := ⟨s.sp.val + 1, by omega⟩, pc := zextAddr nnn } := by
  simp only [exec, execCall, push_ok s.pc h, finish_ok, State.setPc]

/-- CALL on a full stack faults (R73). -/
theorem exec_call_full {s : State} (nnn : Addr12) (h : s.sp.val = 16) :
    exec (.call nnn) s = .next (s.raise (s.pc - 2) (encode (.call nnn)) ⟨.stackOverflow, 0⟩) := by
  simp only [exec, execCall, push_error s.pc h, finish_error]

/-- RET with a used entry pops it to PC (R71). -/
theorem exec_ret_ok {s : State} (h : s.sp.val ≠ 0) :
    exec .ret s = .next { s with sp := ⟨s.sp.val - 1, by omega⟩, pc := s.stack[s.sp.val - 1]'(by omega) } := by
  simp only [exec, execRet, pop_ok h, finish_ok, State.setPc]

/-- RET on an empty stack faults (R71). -/
theorem exec_ret_empty {s : State} (h : s.sp.val = 0) :
    exec .ret s = .next (s.raise (s.pc - 2) (encode .ret) ⟨.stackUnderflow, 0⟩) := by
  simp only [exec, execRet, pop_error h, finish_error]

/-- RET undoes the PC and SP of a CALL: it pops the entry the CALL pushed. -/
theorem exec_ret_of_pushed {s : State} (w : Word) (h : s.sp.val < 16) :
    exec .ret { s with stack := s.stack.set s.sp.val s.pc h, sp := ⟨s.sp.val + 1, by omega⟩, pc := w } =
      .next { s with stack := s.stack.set s.sp.val s.pc h } := by
  rw [exec_ret_ok (Nat.succ_ne_zero s.sp.val)]
  simp only [Nat.add_sub_cancel, Vector.getElem_set_self]

end Sys2Proof.Machine

namespace Sys2Proof.Claims

open Sys2Proof.Machine

/-- An instruction is encoded as the word that the encoder makes of it (R68). -/
theorem encodedAs_of_encode {ins : Instr} {n : Nat} (hwf : wellFormed ins = true)
    (henc : encode ins = BitVec.ofNat 16 n) : EncodedAs ins n := by
  rw [EncodedAs, ← henc]
  exact decodeWord_encode hwf

/-! ### Instructions that load PC only -/

theorem onlyPc_setPc (s : State) (w : Word) : OnlyPc s (s.setPc w) := ⟨rfl, fun _ => rfl⟩

theorem onlyPc_skipIf (s : State) (c : Bool) : OnlyPc s (s.skipIf c) :=
  ⟨s.skipIf_only_pc c, State.readByte_congr (s.skipIf_mem c) (s.skipIf_font c)⟩

/-- An instruction that skips on the condition `c` advances PC by 2 when `c` holds, and else leaves it. -/
theorem runs_of_exec_eq_skipIf {ins : Instr} {s : State} {c : Bool} {taken passed : Prop}
    (hexec : exec ins s = .next (s.skipIf c)) (htaken : taken → c = true) (hpassed : passed → c = false) :
    Runs ins s fun t => OnlyPc s t ∧ (taken → t.pc = s.pc + 2) ∧ (passed → t.pc = s.pc) := by
  refine ⟨_, hexec, onlyPc_skipIf s c, fun h => ?_, fun h => ?_⟩
  · rw [htaken h]; rfl
  · rw [hpassed h]; rfl

/-! ### The obligations -/

/-- Settles O25: NOP's tick is the fetch (`tick_recognised`), a jump sets PC, and NNN + V0 fits 16 bits. -/
theorem nopAndJumpsSetPc : Obligations.NopAndJumpsSetPc := by
  refine ⟨encodedAs_of_encode rfl rfl, fun _ => rfl, fun s hf hpc hword => ?_,
    fun s nnn => ⟨encodedAs_of_encode rfl rfl, ?_⟩, fun s nnn => ⟨encodedAs_of_encode rfl rfl, ?_⟩⟩
  · have hd : decodeWord (s.wordAt s.pc.toNat) = some .nop := by rw [hword]; rfl
    exact tick_recognised hf hpc hd
  · exact ⟨_, rfl, zextAddr_toNat nnn, onlyPc_setPc s _⟩
  · exact ⟨_, rfl, zextAddr_add_zextByte_toNat nnn (s.getV 0), onlyPc_setPc s _⟩

/-- Settles O26: each skip is `State.skipIf` of its comparison (`runs_of_exec_eq_skipIf`). -/
theorem skipsCompareRegisters : Obligations.SkipsCompareRegisters := by
  refine fun s x y nn => ⟨encodedAs_of_encode rfl rfl, encodedAs_of_encode rfl rfl,
    encodedAs_of_encode rfl rfl, encodedAs_of_encode rfl rfl, ?_, ?_, ?_, ?_⟩
  · exact runs_of_exec_eq_skipIf rfl decide_eq_true decide_eq_false
  · exact runs_of_exec_eq_skipIf rfl decide_eq_true fun heq => decide_eq_false (not_not_intro heq)
  · exact runs_of_exec_eq_skipIf rfl decide_eq_true decide_eq_false
  · exact runs_of_exec_eq_skipIf rfl decide_eq_true fun heq => decide_eq_false (not_not_intro heq)

/-- Settles O27: `exec_call_ok` below 16, where the entry SP alone of the stack is written, `exec_call_full` at 16. -/
theorem callPushesTheReturnAddress : Obligations.CallPushesTheReturnAddress := by
  refine fun s nnn => ⟨encodedAs_of_encode rfl rfl, fun hsp => ?_, exec_call_full nnn⟩
  refine ⟨_, exec_call_ok nnn hsp, zextAddr_toNat nnn, rfl, ?_, ?_, rfl, fun _ => rfl⟩
  · intro k hk
    simp only [Fin.getElem_fin, hk, Vector.getElem_set_self]
  · intro k hk
    exact Vector.getElem_set_ne hsp k.isLt hk.symm

/-- Settles O28: `exec_ret_ok` with SP not 0, `exec_ret_empty` with SP = 0. -/
theorem returnPopsTheReturnAddress : Obligations.ReturnPopsTheReturnAddress := by
  refine fun s => ⟨encodedAs_of_encode rfl rfl, fun hsp => ?_, exec_ret_empty⟩
  refine ⟨_, exec_ret_ok hsp, rfl, fun k hk => ?_, rfl, fun _ => rfl⟩
  simp only [Fin.getElem_fin, hk]

/-- Settles O29: the CALL pushes PC at the entry SP, which the RET pops (`exec_ret_of_pushed`). -/
theorem returnUndoesCall : Obligations.ReturnUndoesCall := by
  intro s nnn hsp
  exact ⟨_, _, exec_call_ok nnn hsp, exec_ret_of_pushed _ hsp, rfl,
    fun k hk => Vector.getElem_set_ne hsp k.isLt hk.symm⟩

end Sys2Proof.Claims
end

section
/-!
PROOFS of the family 42_alu.md. The numbers that the wrapped results and the flags stand for; the draw the host named;
what an instruction does whose execute phase is one register write, or a result and then the flag (R79). The obligations
follow from these.
-/

namespace Sys2Proof.Machine

/-! ### The wrapped results and the flags, as numbers -/

/-- `trunc_8` is the remainder modulo 256 (R8). -/
@[simp] theorem trunc8_toNat (n : Nat) : (trunc8 n).toNat = n % 256 := BitVec.toNat_ofNat n 8

theorem trunc8_toNat_of_lt {n : Nat} (h : n < 256) : (trunc8 n).toNat = n := by rw [trunc8_toNat, Nat.mod_eq_of_lt h]

/-- The difference that the subtractions store is the one over the integers, modulo 256 (R87, R89). -/
theorem trunc8_difference_toNat (a b : Byte) :
    (trunc8 (a.toNat + 256 - b.toNat)).toNat = (((a.toNat : Int) - b.toNat) % 256).toNat := by
  have hb := b.isLt
  rw [trunc8_toNat]
  omega

@[simp] theorem flagByte_toNat (c : Bool) : (flagByte c).toNat = if c then 1 else 0 := by cases c <;> rfl

theorem carryFlag_toNat (a b : Byte) : (carryFlag a b).toNat = if a.toNat + b.toNat > 255 then 1 else 0 := by
  simp only [carryFlag, flagByte_toNat, decide_eq_true_eq]

theorem notBorrowFlag_toNat (a b : Byte) : (notBorrowFlag a b).toNat = if a.toNat < b.toNat then 0 else 1 := by
  rw [notBorrowFlag, flagByte_toNat]
  by_cases h : a.toNat < b.toNat <;> simp [h]

theorem lowBitFlag_toNat (a : Byte) : (lowBitFlag a).toNat = a.toNat % 2 := trunc8_toNat_of_lt (by omega)

/-- Bit 7 is the quotient by 128: a byte has no higher bit. -/
theorem highBitFlag_toNat (a : Byte) : (highBitFlag a).toNat = a.toNat / 128 := by
  have ha := a.isLt
  rw [highBitFlag, trunc8_toNat_of_lt (by omega)]
  omega

/-! ### The draw -/

/-- A draw that the host named is the one CXNN takes (R29, R91; log 2). -/
theorem State.draw8_of_rnd {s : State} {r : Byte} (h : s.rnd = some r) : s.draw8 = r := by rw [State.draw8, h]

end Sys2Proof.Machine

namespace Sys2Proof.Claims

open Sys2Proof.Machine

/-! ### Instructions that write the register array only -/

theorem setsOnly_setV (s : State) (x : Reg) (b : Byte) : SetsOnly s (s.setV x b) x b :=
  ⟨s.getV_setV_self x b, fun k hk => by rw [State.getV_setV, if_neg hk.symm]⟩

theorem onlyV_setV (s : State) (x : Reg) (b : Byte) : OnlyV s (s.setV x b) := ⟨rfl, fun _ => rfl⟩

/-- An instruction that is one write to VX sets VX, also when X = F, and nothing else. -/
theorem runs_of_exec_eq_setV {ins : Instr} {s : State} {x : Reg} {b : Byte} (hexec : exec ins s = .next (s.setV x b)) :
    Runs ins s fun t => SetsOnly s t x b ∧ OnlyV s t :=
  ⟨_, hexec, setsOnly_setV s x b, onlyV_setV s x b⟩

/-- The flag is the last write, so VF holds it also when X = F (R79). -/
theorem setsResultAndFlag_setResultAndFlag (s : State) (x : Reg) (r f : Byte) :
    SetsResultAndFlag s (s.setResultAndFlag x r f) x r.toNat f.toNat := by
  refine ⟨?_, fun hx => ?_, fun k hkx hkf => ?_⟩
  · rw [State.getV_setResultAndFlag, if_pos (show (15 : Reg) = regF from rfl)]
  · rw [State.getV_setResultAndFlag, if_neg (show x ≠ regF from hx), if_pos rfl]
  · rw [State.getV_setResultAndFlag, if_neg (show k ≠ regF from hkf), if_neg hkx]

/-- A flag instruction ends with VF as the number of its flag, VX as that of its result, and nothing else changed. -/
theorem runs_of_exec_eq_setResultAndFlag {ins : Instr} {s : State} {x : Reg} {r f : Byte} {result flag : Nat}
    (hexec : exec ins s = .next (s.setResultAndFlag x r f)) (hr : r.toNat = result) (hf : f.toNat = flag) :
    Runs ins s fun t => SetsResultAndFlag s t x result flag ∧ OnlyV s t := by
  subst hr hf
  exact ⟨_, hexec, setsResultAndFlag_setResultAndFlag s x r f, s.setResultAndFlag_only_v x r f, fun _ => rfl⟩

/-! ### The obligations -/

/-- Settles O32: the sum wraps (`trunc8`), and VF is `carryFlag`, written last. -/
theorem addSetsCarryLast : Obligations.AddSetsCarryLast := fun _ _ _ =>
  ⟨encodedAs_of_encode rfl rfl,
    runs_of_exec_eq_setResultAndFlag rfl (trunc8_toNat _) (carryFlag_toNat _ _)⟩

/-- Settles O33: the stored difference is the integers' (`trunc8_difference_toNat`), and VF is `notBorrowFlag`. -/
theorem subtractSetsNotBorrowLast : Obligations.SubtractSetsNotBorrowLast := fun _ _ _ =>
  ⟨encodedAs_of_encode rfl rfl,
    runs_of_exec_eq_setResultAndFlag rfl (trunc8_difference_toNat _ _) (notBorrowFlag_toNat _ _)⟩

/-- Settles O34: as O33, with VX and VY exchanged. -/
theorem reverseSubtractSetsNotBorrowLast : Obligations.ReverseSubtractSetsNotBorrowLast := fun _ _ _ =>
  ⟨encodedAs_of_encode rfl rfl,
    runs_of_exec_eq_setResultAndFlag rfl (trunc8_difference_toNat _ _) (notBorrowFlag_toNat _ _)⟩

/-- Settles O35: half of a byte is a byte, its double wraps, and VF is bit 0 or bit 7 of the old VX. -/
theorem shiftsMoveVxAndSetTheBitShiftedOut : Obligations.ShiftsMoveVxAndSetTheBitShiftedOut := by
  intro s x y
  refine ⟨encodedAs_of_encode rfl rfl, encodedAs_of_encode rfl rfl, ?_, ?_⟩
  · have hhalf : (s.getV x).toNat / 2 < 256 := by omega
    exact runs_of_exec_eq_setResultAndFlag rfl (trunc8_toNat_of_lt hhalf) (lowBitFlag_toNat _)
  · exact runs_of_exec_eq_setResultAndFlag rfl (trunc8_toNat _) (highBitFlag_toNat _)

/-- Settles O30: each of the five is one write to VX (`runs_of_exec_eq_setV`). -/
theorem movesAndBitwiseWriteVx : Obligations.MovesAndBitwiseWriteVx := by
  intro s x y nn
  exact ⟨encodedAs_of_encode rfl rfl, encodedAs_of_encode rfl rfl, encodedAs_of_encode rfl rfl,
    encodedAs_of_encode rfl rfl, encodedAs_of_encode rfl rfl,
    runs_of_exec_eq_setV rfl, runs_of_exec_eq_setV rfl, runs_of_exec_eq_setV rfl,
    runs_of_exec_eq_setV rfl, runs_of_exec_eq_setV rfl⟩

/-- Settles O31: one write to VX, of the wrapped sum. -/
theorem addImmediateWrapsWithoutFlag : Obligations.AddImmediateWrapsWithoutFlag := by
  intro s x nn
  obtain ⟨hx, hother⟩ := setsOnly_setV s x (trunc8 ((s.getV x).toNat + nn.toNat))
  refine ⟨encodedAs_of_encode rfl rfl, _, rfl, ?_, hother, onlyV_setV s x _⟩
  rw [hx, trunc8_toNat]

/-- Settles O36: VX is written with `State.draw8` masked, which is the host's draw when it named one (R91). -/
theorem randomByteIsMaskedIntoVx : Obligations.RandomByteIsMaskedIntoVx := by
  intro s x nn
  obtain ⟨hx, hother⟩ := setsOnly_setV s x (s.draw8 &&& nn)
  refine ⟨encodedAs_of_encode rfl rfl, _, rfl, fun r hr => ?_, ⟨s.draw8, hx⟩, hother, rfl, fun _ => rfl⟩
  rw [State.draw8_of_rnd hr] at hx ⊢
  exact hx

end Sys2Proof.Claims
end

section
/-!
PROOFS of the family 43_index_memory.md. Every execute phase answers a next state, so the fault of an instruction is the
one its row of R108 lists (`faults_of_faultOf`); what `FX33` stores (R95) and what `FX65` loads (R97) inside memory. The
obligations follow from these and from the laws of `FX55` in the family 20_memory.md.
-/

namespace Sys2Proof.Machine

open Sys2Proof.Claims

/-- `trunc_16` is the remainder modulo 65536 (R8). -/
@[simp] theorem trunc16_toNat (n : Nat) : (trunc16 n).toNat = n % 65536 := BitVec.toNat_ofNat n 16

/-! ### The fault of an instruction -/

/-- The end of an instruction answers a next state, with or without a fault (R109). -/
theorem finish_answers (ins : Instr) (s : State) (r : Except MachineFault State) : ∃ t, finish ins s r = .next t := by
  cases r with
  | ok t => exact ⟨t, rfl⟩
  | error f => exact ⟨_, rfl⟩

/-- Every execute phase answers a next state. -/
theorem exec_answers (ins : Instr) (s : State) : ∃ t, exec ins s = .next t := by
  cases ins with
  | call _ | ret | drw _ _ _ | skp _ | sknp _ | ldB _ | storeRegs _ | loadRegs _ => exact finish_answers _ s _
  | ldVxK x =>
    simp only [exec, execLdVxK]
    cases s.firstKey with
    | some k => exact ⟨_, rfl⟩
    | none => exact ⟨_, rfl⟩
  | _ => exact ⟨_, rfl⟩

/-- An instruction takes the fault that its row of R108 lists. -/
theorem faults_of_faultOf {ins : Instr} {s : State} {k : FaultKind} {a : Nat} (h : faultOf ins s = some (k, a)) :
    Faults ins s k a := by
  obtain ⟨t, ht⟩ := exec_answers ins s
  rcases exec_fault_or_effect ht with ⟨k', a', hrow, rfl⟩ | ⟨hnone, -⟩
  · cases h.symm.trans hrow
    exact ht
  · cases h.symm.trans hnone

/-! ### FX33 -/

/-- A byte has three decimal digits (R95). -/
@[simp] theorem bcdDigits_length (b : Byte) : (bcdDigits b).length = 3 := rfl

/-- `FX33` inside memory stores the digits of VX from I up (R95). -/
theorem exec_ldB_ok {s : State} {x : Reg} (h : s.i.toNat + 2 ≤ 0xFFF) :
    exec (.ldB x) s = .next (State.writeBytes s.i.toNat (bcdDigits (s.getV x)) s) := by
  have hfit : s.i.toNat + (bcdDigits (s.getV x)).length ≤ 4096 := by rw [bcdDigits_length]; omega
  simp only [exec, execLdB, checkedWrite_ok hfit, finish_ok]

/-! ### FX65 -/

/-- The state `FX65` leaves when it reads inside memory (R97): V0..VX replaced by the bytes from I up. -/
def State.loaded (s : State) (x : Reg) : State :=
  s.setVs (putRegs 0 ((List.range (x.val + 1)).map fun k => s.readByte (s.i.toNat + k)) s.v)

theorem exec_loadRegs_ok {s : State} {x : Reg} (h : s.i.toNat + x.val ≤ 0xFFF) :
    exec (.loadRegs x) s = .next (s.loaded x) := by
  simp only [exec, execLoadRegs, checkedRead_ok (.inr (show s.i.toNat + (x.val + 1) ≤ 4096 by omega)), finish_ok,
    State.loaded]

theorem State.getV_loaded (s : State) (x k : Reg) :
    (s.loaded x).getV k = if k ≤ x then s.readByte (s.i.toNat + k.val) else s.getV k := by
  simp only [State.loaded, State.getV, State.setVs_v, Fin.getElem_fin, putRegs_getElem]
  by_cases hk : k ≤ x
  · have hlt : k.val < x.val + 1 := Nat.lt_succ_of_le hk
    simp [hk, hlt]
  · have hge : ¬ k.val < x.val + 1 := fun hlt => hk (Nat.le_of_lt_succ hlt)
    simp [hk, hge]

end Sys2Proof.Machine

namespace Sys2Proof.Claims

open Sys2Proof.Machine

/-! ### Instructions that write I only -/

theorem onlyI_setI (s : State) (a : Word) : OnlyI s (s.setI a) := ⟨rfl, fun _ => rfl⟩

/-- An instruction that is one write to I ends with I as the number written, and nothing else changed. -/
theorem runs_of_exec_eq_setI {ins : Instr} {s : State} {a : Word} {n : Nat} (hexec : exec ins s = .next (s.setI a))
    (ha : a.toNat = n) : Runs ins s fun t => t.i.toNat = n ∧ OnlyI s t :=
  ⟨_, hexec, ha, onlyI_setI s a⟩

/-! ### The obligations -/

/-- Settles O38: each digit is below 256, so its byte holds it; past memory the fault is the row of R108. -/
theorem bcdStoresThreeDigits : Obligations.BcdStoresThreeDigits := by
  intro s x
  have hbyte := (s.getV x).isLt
  have hdigit (k : Nat) (hk : k < 3) : (State.writeBytes s.i.toNat (bcdDigits (s.getV x)) s).readByte (s.i.toNat + k) =
      (bcdDigits (s.getV x))[k]'hk := State.readByte_writeBytes_add s.i.toNat s hk
  refine ⟨encodedAs_of_encode rfl rfl, fun hi => ⟨_, exec_ldB_ok hi, ?_, ?_, ?_, fun a ha => ?_,
    State.writeBytes_only_mem _ _ s⟩, fun hi => faults_of_faultOf (if_pos hi)⟩
  · exact (congrArg BitVec.toNat (hdigit 0 (by decide))).trans (trunc8_toNat_of_lt (by omega))
  · exact (congrArg BitVec.toNat (hdigit 1 (by decide))).trans (trunc8_toNat_of_lt (by omega))
  · exact (congrArg BitVec.toNat (hdigit 2 (by decide))).trans (trunc8_toNat_of_lt (by omega))
  · refine State.readByte_writeBytes_outside s ?_
    rw [bcdDigits_length]
    omega

/-- Settles O39: the stored bytes are V0..VX (`State.lowRegs`); past memory the fault is the row of R108. -/
theorem storeWritesV0ToVx : Obligations.StoreWritesV0ToVx := by
  refine fun s x => ⟨encodedAs_of_encode rfl rfl, fun hi => ⟨_, exec_storeRegs_ok hi,
    fun k hk => State.readByte_writeBytes_lowRegs _ s hk, fun a ha => ?_, State.writeBytes_only_mem _ _ s⟩,
    fun hi => faults_of_faultOf (if_pos hi)⟩
  refine State.readByte_writeBytes_outside s ?_
  rw [State.lowRegs_length]
  omega

/-- Settles O40: `State.getV_loaded` up to X and above it; past memory the fault is the row of R108. -/
theorem loadReadsV0ToVx : Obligations.LoadReadsV0ToVx := by
  refine fun s x => ⟨encodedAs_of_encode rfl rfl, fun hi => ⟨_, exec_loadRegs_ok hi, fun k hk => ?_, fun k hk => ?_,
    rfl, fun _ => rfl⟩, fun hi => faults_of_faultOf (if_pos hi)⟩
  · rw [State.getV_loaded, if_pos hk]
  · rw [State.getV_loaded, if_neg (not_le_of_gt hk)]

/-- Settles O41: the store keeps I (O39), so the load reads at the addresses where the store wrote (O40). -/
theorem loadAfterStoreBringsRegistersBack : Obligations.LoadAfterStoreBringsRegistersBack := by
  intro s x w hfit
  obtain ⟨-, hstore, -⟩ := storeWritesV0ToVx s x
  obtain ⟨t, ht, hstored, -, hframe⟩ := hstore hfit
  have hi : t.i = s.i := (congrArg State.i hframe :)
  obtain ⟨-, hload, -⟩ := loadReadsV0ToVx { t with v := w } x
  obtain ⟨u, hu, hlow, hhigh, honly, -⟩ := hload (hi ▸ hfit)
  refine ⟨t, u, ht, hu, fun k hk => ?_, hhigh, honly⟩
  calc u.getV k = t.readByte (t.i.toNat + k.val) := hlow k hk
    _ = t.readByte (s.i.toNat + k.val) := by rw [hi]
    _ = s.getV k := hstored k hk

/-- Settles O37: each is one write to I; NNN and 5 * VX fit 16 bits, the sum wraps. -/
theorem indexInstructionsSetI : Obligations.IndexInstructionsSetI := by
  intro s x nnn
  refine ⟨encodedAs_of_encode rfl rfl, encodedAs_of_encode rfl rfl, encodedAs_of_encode rfl rfl,
    runs_of_exec_eq_setI rfl (zextAddr_toNat nnn), runs_of_exec_eq_setI rfl (trunc16_toNat _),
    runs_of_exec_eq_setI rfl ?_⟩
  have hbyte := (s.getV x).isLt
  exact (trunc16_toNat _).trans (Nat.mod_eq_of_lt (by omega))

end Sys2Proof.Claims
end

section
/-!
PROOFS of the family 44_display.md. What a draw does to a display and its `hit`, as a relation (`Xors`): one sprite cell,
and then rows and columns, which wrap to disjoint pixels; the execute phase of DXYN inside memory (R100). The obligations
follow from these and, for the host's reads (R101), from `Vector.flatten`.
-/

namespace Sys2Proof.Machine

open Sys2Proof.Claims

/-! ### The host's read of the display (R101) -/

/-- The bits the host reads are the rows of the display one after another. -/
theorem State.displayOut_eq_flatten (s : State) : s.displayOut = s.disp.flatten.toList := by
  simp only [State.displayOut, List.flatMap_def, Vector.flatten, Vector.toList, Array.toList_flatten, Array.toList_map,
    List.map_map]
  rfl

/-! ### XORing a set of pixels -/

/-- Drawing takes the display and `hit` of `a` to those of `b`: the pixels of `on` are inverted, the others are kept,
and `hit` is noted when one of the inverted pixels was ON (R100). -/
structure Xors (on : Fin 64 → Fin 32 → Prop) (a b : Screen × Bool) : Prop where
  inverted : ∀ {px py}, on px py → b.1.pixel px py = !a.1.pixel px py
  kept : ∀ {px py}, ¬ on px py → b.1.pixel px py = a.1.pixel px py
  hit_iff : b.2 = true ↔ a.2 = true ∨ ∃ px py, on px py ∧ a.1.pixel px py = true

namespace Xors

variable {on on' : Fin 64 → Fin 32 → Prop} {a b c : Screen × Bool}

theorem congr (h : Xors on a b) (hon : ∀ px py, on px py ↔ on' px py) : Xors on' a b where
  inverted hpx := h.inverted ((hon _ _).2 hpx)
  kept hpx := h.kept fun hp => hpx ((hon _ _).1 hp)
  hit_iff := by simp only [h.hit_iff, hon]

/-- Nothing is drawn. -/
theorem refl_of_empty (hon : ∀ px py, ¬ on px py) : Xors on a a where
  inverted hpx := absurd hpx (hon _ _)
  kept _ := rfl
  hit_iff := by simp [hon]

/-- Disjoint sets of pixels drawn one after the other: the second draw sees its pixels as they were at first. -/
theorem trans (h : Xors on a b) (h' : Xors on' b c) (hdisj : ∀ px py, on px py → ¬ on' px py) :
    Xors (fun px py => on px py ∨ on' px py) a c where
  inverted {px py} := by
    rintro (hp | hp)
    · rw [h'.kept (hdisj px py hp), h.inverted hp]
    · rw [h'.inverted hp, h.kept fun hp' => hdisj px py hp' hp]
  kept hp := by
    obtain ⟨hp, hp'⟩ := not_or.1 hp
    rw [h'.kept hp', h.kept hp]
  hit_iff := by
    have hseen (px py) : (on' px py ∧ b.1.pixel px py = true) ↔ (on' px py ∧ a.1.pixel px py = true) :=
      and_congr_right fun hp => by rw [h.kept fun hp' => hdisj px py hp' hp]
    simp only [h'.hit_iff, h.hit_iff, hseen, or_and_right, exists_or, or_assoc]

/-- Draws number 0 to n - 1, each on its own pixels, draw the union of the pixels. -/
theorem foldl_range {draw : Nat → Screen × Bool → Screen × Bool} {cells : Nat → Fin 64 → Fin 32 → Prop} {n : Nat}
    (hdraw : ∀ i a, Xors (cells i) a (draw i a))
    (hdisj : ∀ i j, i < j → j < n → ∀ px py, cells i px py → ¬ cells j px py) :
    Xors (fun px py => ∃ i < n, cells i px py) a ((List.range n).foldl (fun acc i => draw i acc) a) := by
  induction n with
  | zero => exact refl_of_empty (by simp)
  | succ n ih =>
    rw [List.range_succ, List.foldl_append]
    have hfirst := ih fun i j hij hj => hdisj i j hij (by omega)
    refine (hfirst.trans (hdraw n _) ?_).congr fun px py => ?_
    · rintro px py ⟨i, hi, hcell⟩
      exact hdisj i n hi (Nat.lt_succ_self n) px py hcell
    · simp only [Nat.lt_succ_iff_lt_or_eq, or_and_right, exists_or, exists_eq_left]

/-- A draw from `hit` = 0 reports exactly that some pixel went from ON to OFF. -/
theorem hit_iff_turnedOff (h : Xors on a b) (ha : a.2 = false) :
    b.2 = true ↔ ∃ px py, a.1.pixel px py = true ∧ b.1.pixel px py = false := by
  have hoff (px py) : (on px py ∧ a.1.pixel px py = true) ↔ (a.1.pixel px py = true ∧ b.1.pixel px py = false) := by
    by_cases hp : on px py
    · simp [hp, h.inverted hp]
    · simp +contextual [hp, h.kept hp]
  simp only [h.hit_iff, ha, hoff, Bool.false_eq_true, false_or]

/-- The same pixels drawn twice are as at first. -/
theorem pixel_twice (h : Xors on a b) (h' : Xors on (b.1, false) c) (px : Fin 64) (py : Fin 32) :
    c.1.pixel px py = a.1.pixel px py := by
  by_cases hp : on px py
  · rw [h'.inverted hp, h.inverted hp, Bool.not_not]
  · rw [h'.kept hp, h.kept hp]

/-- The second draw of the same pixels meets an ON pixel exactly where the first met an OFF one. -/
theorem hit_twice (h : Xors on a b) (h' : Xors on (b.1, false) c) :
    c.2 = true ↔ ∃ px py, on px py ∧ a.1.pixel px py = false := by
  have hseen (px py) : (on px py ∧ b.1.pixel px py = true) ↔ (on px py ∧ a.1.pixel px py = false) :=
    and_congr_right fun hp => by rw [h.inverted hp, Bool.not_eq_true']
  simp only [h'.hit_iff, hseen, Bool.false_eq_true, false_or]

end Xors

/-! ### The sprite engine (R99, R100) -/

/-- Column `c` of the sprite row `b` is set and lands on pixel (px, py), wrapped at both edges (R99). -/
def CellOn (b : Byte) (x0 y c : Nat) (px : Fin 64) (py : Fin 32) : Prop :=
  px.val = (x0 + c) % 64 ∧ py.val = y % 32 ∧ spriteBit b c = true

theorem xors_drawCell (b : Byte) (x0 y c : Nat) (a : Screen × Bool) : Xors (CellOn b x0 y c) a (drawCell b x0 y c a) := by
  by_cases hbit : spriteBit b c = true
  · rw [drawCell, if_pos hbit]
    have hcell (px : Fin 64) (py : Fin 32) :
        (Fin.ofNat 64 (x0 + c) = px ∧ Fin.ofNat 32 y = py) ↔ CellOn b x0 y c px py := by
      simp [CellOn, hbit, Fin.ext_iff, eq_comm]
    refine Xors.congr ⟨fun hp => ?_, fun hp => ?_, ?_⟩ hcell
    · obtain ⟨rfl, rfl⟩ := hp
      rw [Screen.pixel_flip, if_pos ⟨rfl, rfl⟩]
    · rw [Screen.pixel_flip, if_neg hp]
    · simp
  · rw [drawCell, if_neg hbit]
    exact Xors.refl_of_empty fun _ _ ⟨_, _, hp⟩ => hbit hp

/-- The 8 columns of a row are on different pixels of it. -/
theorem xors_drawRow (b : Byte) (x0 y : Nat) (a : Screen × Bool) :
    Xors (fun px py => ∃ c < 8, CellOn b x0 y c px py) a (drawRow b x0 y a) := by
  refine Xors.foldl_range (fun c a => xors_drawCell b x0 y c a) ?_
  rintro c c' hlt h8 px py ⟨hx, -, -⟩ ⟨hx', -, -⟩
  omega

/-- The rows of a sprite are drawn in order, one row coordinate lower each. -/
theorem drawRows_eq_foldl (x0 y n : Nat) (row : Nat → Byte) (a : Screen × Bool) :
    drawRows x0 y ((List.range n).map row) a =
      (List.range n).foldl (fun acc r => drawRow (row r) x0 (y + r) acc) a := by
  induction n generalizing y row a with
  | zero => rfl
  | succ n ih =>
    simp only [List.range_succ_eq_map, List.map_cons, List.map_map, drawRows, List.foldl_cons, List.foldl_map, ih,
      Function.comp_apply, Nat.add_zero, Nat.add_assoc, Nat.add_comm 1, Nat.succ_eq_add_one]

/-- At most 32 rows are on different rows of the display. -/
theorem xors_drawRows (x0 y : Nat) {n : Nat} (row : Nat → Byte) (a : Screen × Bool) (hn : n ≤ 32) :
    Xors (fun px py => ∃ r < n, ∃ c < 8, CellOn (row r) x0 (y + r) c px py) a
      (drawRows x0 y ((List.range n).map row) a) := by
  rw [drawRows_eq_foldl]
  refine Xors.foldl_range (fun r a => xors_drawRow (row r) x0 (y + r) a) ?_
  rintro r r' hlt hn' px py ⟨c, -, -, hy, -⟩ ⟨c', -, -, hy', -⟩
  omega

/-! ### The execute phase of DXYN inside memory -/

/-- The sprite of `DXYN` drawn on the display of `s` from `hit` = 0 (R100). -/
def State.spriteDrawn (s : State) (x y : Reg) (n : Nat) : Screen × Bool :=
  drawRows ((s.getV x).toNat % 64) ((s.getV y).toNat % 32) ((List.range n).map fun r => s.readByte (s.i.toNat + r))
    (s.disp, false)

/-- The state `DXYN` leaves when its sprite is inside memory: the display drawn, then VF (R100). -/
def State.drawn (s : State) (x y : Reg) (n : Nat) : State :=
  (s.setDisp (s.spriteDrawn x y n).1).setV regF (flagByte (s.spriteDrawn x y n).2)

theorem exec_drw_ok {s : State} (x y : Reg) {n : Nat} (h : n = 0 ∨ s.i.toNat + n - 1 ≤ 0xFFF) :
    exec (.drw x y n) s = .next (s.drawn x y n) := by
  simp only [exec, execDrw, checkedRead_ok (show n = 0 ∨ s.i.toNat + n ≤ 4096 by omega), finish_ok, State.drawn,
    State.spriteDrawn]

theorem spriteBit_eq_true_iff (b : Byte) (c : Nat) : spriteBit b c = true ↔ b.toNat / 2 ^ (7 - c) % 2 = 1 := by
  rw [spriteBit, ← BitVec.testBit_toNat, Nat.testBit_eq_decide_div_mod_eq, decide_eq_true_eq]

theorem spriteOn_iff_cellOn (s : State) (x y : Reg) (n : Nat) (px : Fin 64) (py : Fin 32) :
    SpriteOn s x y n px py ↔ ∃ r < n, ∃ c < 8, CellOn (s.readByte (s.i.toNat + r)) ((s.getV x).toNat % 64)
      ((s.getV y).toNat % 32 + r) c px py := by
  simp only [SpriteOn, CellOn, spriteBit_eq_true_iff, exists_and_left]

/-- DXYN XORs its sprite: the display it draws differs from the old one under the set bits of the sprite. -/
theorem State.xors_spriteDrawn (s : State) (x y : Reg) {n : Nat} (hn : n ≤ 15) :
    Xors (SpriteOn s x y n) (s.disp, false) (s.spriteDrawn x y n) :=
  (xors_drawRows _ _ _ _ (by omega)).congr fun px py => (spriteOn_iff_cellOn s x y n px py).symm

@[simp] theorem flagByte_eq_one_iff (c : Bool) : flagByte c = 1 ↔ c = true := by cases c <;> decide

/-- VF is the draw's `hit`, also when X or Y is F: it is written last (R79, R100). -/
theorem State.getV_drawn_flag (s : State) (x y : Reg) (n : Nat) :
    (s.drawn x y n).getV 15 = flagByte (s.spriteDrawn x y n).2 := State.getV_setV_self _ regF _

theorem State.getV_drawn_of_ne (s : State) (x y : Reg) (n : Nat) {k : Reg} (hk : k ≠ 15) :
    (s.drawn x y n).getV k = s.getV k := (State.getV_setV _ regF k _).trans (if_neg hk.symm)

/-- A draw moves no sprite whose origin is not read from VF. -/
theorem spriteOn_drawn {x y : Reg} (s : State) (n : Nat) (hx : x ≠ 15) (hy : y ≠ 15) (px : Fin 64) (py : Fin 32) :
    SpriteOn (s.drawn x y n) x y n px py ↔ SpriteOn s x y n px py := by
  simp only [SpriteOn, State.getV_drawn_of_ne s x y n hx, State.getV_drawn_of_ne s x y n hy]
  rfl

end Sys2Proof.Machine

namespace Sys2Proof.Claims

open Sys2Proof.Machine

/-! ### The obligations -/

/-- Settles O24: the bits read are `Vector.flatten`, whose index 64 y + x is in row y at column x. -/
theorem hostReadsDisplayRowMajor : Obligations.HostReadsDisplayRowMajor := by
  intro s
  refine ⟨?_, fun x y => ?_, Vector.length_toList, fun k => ?_⟩
  · rw [s.displayOut_eq_flatten, Vector.length_toList]
  · have hlt : 64 * y.val + x.val < 32 * 64 := by omega
    have hrow : (64 * y.val + x.val) / 64 = y.val := by omega
    have hcol : (64 * y.val + x.val) % 64 = x.val := by omega
    rw [s.displayOut_eq_flatten, Vector.getElem?_toList, Vector.getElem?_eq_getElem hlt, Vector.getElem_flatten hlt]
    simp only [hrow, hcol, Screen.pixel, Fin.getElem_fin]
  · rw [State.keysOut, Vector.getElem?_toList, Vector.getElem?_eq_getElem k.isLt, Fin.getElem_fin]

/-- Settles O44: inside memory `State.drawn`, where VF is 1 exactly when a pixel went OFF (`Xors.hit_iff_turnedOff`);
past memory the fault is the row of R108. -/
theorem drawXorsTheSprite : Obligations.DrawXorsTheSprite := by
  intro s x y n hn
  have hword : encode (.drw x y n) = BitVec.ofNat 16 (0xD000 + x.val * 0x100 + y.val * 0x10 + n) := by
    rw [encode, encodeXYN, Nat.mod_eq_of_lt (by omega : n < 16)]
  have hxors := s.xors_spriteDrawn x y hn
  have hhit := hxors.hit_iff_turnedOff rfl
  refine ⟨encodedAs_of_encode (decide_eq_true (by omega)) hword, fun hfit => ?_,
    fun hn1 hout => faults_of_faultOf (if_pos ⟨hn1, hout⟩)⟩
  refine ⟨_, exec_drw_ok x y hfit, fun px py => ⟨hxors.inverted, hxors.kept⟩, fun hoff => ?_, fun hoff => ?_,
    fun k hk => s.getV_drawn_of_ne x y n hk, rfl, fun _ => rfl⟩
  · rw [State.getV_drawn_flag, hhit.2 hoff]; rfl
  · rw [State.getV_drawn_flag, Bool.eq_false_iff.2 (mt hhit.1 hoff)]; rfl

/-- Settles O45: the second draw XORs the same pixels (`spriteOn_drawn`), and meets an ON pixel where the first met an
OFF one. -/
theorem drawTwiceRestoresTheDisplay : Obligations.DrawTwiceRestoresTheDisplay := by
  intro s x y n hn hx hy hfit
  have hfirst := s.xors_spriteDrawn x y hn
  have hsecond := ((s.drawn x y n).xors_spriteDrawn x y hn).congr (spriteOn_drawn s n hx hy)
  refine ⟨_, _, exec_drw_ok x y hfit, exec_drw_ok x y hfit, hfirst.pixel_twice hsecond, ?_⟩
  rw [State.getV_drawn_flag, flagByte_eq_one_iff]
  exact hfirst.hit_twice hsecond

/-- Settles O43: `Screen.clear` has every pixel OFF, and nothing but the display is set. -/
theorem clearTurnsEveryPixelOff : Obligations.ClearTurnsEveryPixelOff :=
  ⟨encodedAs_of_encode rfl rfl, fun _ => ⟨_, rfl, Screen.pixel_clear, rfl, fun _ => rfl⟩⟩

end Sys2Proof.Claims
end

section
/-!
PROOFS of the family 45_keys_timers.md. The first pressed key is the least one (`State.firstKey_eq_some_iff`); the execute
phase of EX9E and EXA1 with an index in range (R102, R103), and of FX0A with and without a pressed key (R105). The
obligations follow from these.
-/

namespace Sys2Proof.Machine

/-! ### The lowest pressed key (R105) -/

/-- `State.firstKey` is the library's least index with a property. -/
theorem State.firstKey_eq_find? (s : State) : s.firstKey = Fin.find? fun k => s.key[k] :=
  Fin.find?_eq_find?_finRange.symm

theorem State.firstKey_eq_some_iff {s : State} {k : Fin 16} :
    s.firstKey = some k ↔ s.key[k] = true ∧ ∀ j : Fin 16, j < k → s.key[j] = false := by
  rw [State.firstKey_eq_find?, Fin.find?_eq_some_iff]

theorem State.firstKey_eq_none_iff {s : State} : s.firstKey = none ↔ ∀ k : Fin 16, s.key[k] = false := by
  rw [State.firstKey_eq_find?, Fin.find?_eq_none_iff]

/-! ### The execute phase of EX9E, EXA1 and FX0A -/

/-- EX9E with VX in 0..15 skips when the key is pressed (R102). -/
theorem exec_skp_ok {s : State} {x : Reg} {k : Fin 16} (h : (s.getV x).toNat = k.val) :
    exec (.skp x) s = .next (s.skipIf s.key[k]) := by
  simp only [exec, execSkp, h, checkedKey_ok k.isLt, finish_ok, Fin.getElem_fin]

/-- EXA1 with VX in 0..15 skips when the key is not pressed (R103). -/
theorem exec_sknp_ok {s : State} {x : Reg} {k : Fin 16} (h : (s.getV x).toNat = k.val) :
    exec (.sknp x) s = .next (s.skipIf (!s.key[k])) := by
  simp only [exec, execSknp, h, checkedKey_ok k.isLt, finish_ok, Fin.getElem_fin]

/-- FX0A with a key pressed takes the first one (R105). -/
theorem exec_ldVxK_pressed {s : State} {k : Fin 16} (x : Reg) (h : s.firstKey = some k) :
    exec (.ldVxK x) s = .next (s.setV x (trunc8 k.val)) := by
  simp only [exec, execLdVxK, h]

/-- FX0A with no key pressed takes PC back by 2 (R105). -/
theorem exec_ldVxK_none {s : State} (x : Reg) (h : s.firstKey = none) :
    exec (.ldVxK x) s = .next (s.setPc (s.pc - 2)) := by
  simp only [exec, execLdVxK, h]

/-- PC moved on by 2 and back again is the state before: the fetch's +2 and the −2 of FX0A cancel (R105). -/
theorem State.setPc_add_two_sub_two (s : State) :
    (s.setPc (s.pc + 2)).setPc ((s.setPc (s.pc + 2)).pc - 2) = s := by
  simp only [State.setPc, BitVec.add_sub_cancel]

end Sys2Proof.Machine

namespace Sys2Proof.Claims

open Sys2Proof.Machine

/-! ### The obligations -/

/-- Settles O48: a pressed key with none below it is `State.firstKey`; with none pressed the −2 undoes the fetch. -/
theorem keyWaitTakesTheLowestKey : Obligations.KeyWaitTakesTheLowestKey := by
  refine fun s x => ⟨encodedAs_of_encode rfl rfl, fun k hk hlow => ?_, fun hnone => ⟨?_, fun hf hpc hd => ?_⟩⟩
  · have hfirst : s.firstKey = some k := State.firstKey_eq_some_iff.2 ⟨hk, hlow⟩
    obtain ⟨hx, hother⟩ := setsOnly_setV s x (trunc8 k.val)
    refine ⟨_, exec_ldVxK_pressed x hfirst, ?_, hother, onlyV_setV s x _⟩
    rw [hx, trunc8_toNat_of_lt (by omega)]
  · exact ⟨_, exec_ldVxK_none x (State.firstKey_eq_none_iff.2 hnone), rfl, onlyPc_setPc s _⟩
  · have hfetched : (s.setPc (s.pc + 2)).firstKey = none := State.firstKey_eq_none_iff.2 hnone
    calc tick s = exec (.ldVxK x) (s.setPc (s.pc + 2)) := tick_recognised hf hpc hd
      _ = .next ((s.setPc (s.pc + 2)).setPc ((s.setPc (s.pc + 2)).pc - 2)) := exec_ldVxK_none x hfetched
      _ = .next s := by rw [State.setPc_add_two_sub_two]

/-- Settles O46: in range each is `State.skipIf` of the key or of its negation; above 15 the fault is the row of R108. -/
theorem keySkipsReadOneKey : Obligations.KeySkipsReadOneKey := by
  refine fun s x => ⟨encodedAs_of_encode rfl rfl, encodedAs_of_encode rfl rfl, fun k hk => ⟨?_, ?_⟩,
    fun hout => ⟨faults_of_faultOf (if_pos hout), faults_of_faultOf (if_pos hout)⟩⟩
  · exact ⟨_, exec_skp_ok hk, onlyPc_skipIf s _, s.skipIf_pc _⟩
  · refine ⟨_, exec_sknp_ok hk, onlyPc_skipIf s _, ?_⟩
    rw [State.skipIf_pc]
    cases s.key[k] with
    | true => rfl
    | false => rfl

/-- Settles O47: FX07 is one write to VX (`runs_of_exec_eq_setV`), FX15 one write to ST. -/
theorem timerMovesCopyOneByte : Obligations.TimerMovesCopyOneByte := by
  intro s x
  exact ⟨encodedAs_of_encode rfl rfl, encodedAs_of_encode rfl rfl, runs_of_exec_eq_setV rfl,
    s.setSt (s.getV x), rfl, rfl, rfl, fun _ => rfl⟩

end Sys2Proof.Claims
end

section
/-!
PROOFS of the family 60_exceptions.md. A tick that ends with a fault is the state before plus the record (R109,
`tick_eq_of_fault`); the host's commands and what each reads of a recorded fault (R111); TIMER_TICK as a count-down
(R117, R118); and the execute phase under another random byte (R121, `exec_setDraw`). The obligations follow from these.
-/

namespace Sys2Proof.Machine

open Sys2Proof.Claims

/-! ### Taking a fault (R108, R109) -/

/-- The fault record after the execute phase of an instruction is the one of its row of R108. -/
theorem exec_fault_eq {ins : Instr} {s t : State} (hs : s.fault = none) (h : exec ins s = .next t) :
    t.fault = (faultOf ins s).map fun p => ⟨p.1, s.pc - 2, encode ins, BitVec.ofNat 16 p.2⟩ := by
  rcases exec_fault_or_effect h with ⟨k, a, hrow, rfl⟩ | ⟨hrow, he⟩
  · rw [hrow]; rfl
  · rw [hrow, he.frame.fault_eq, hs]; rfl

/-- The fetch faults exactly past memory (R42). -/
theorem exists_fetch_eq_error_iff (s : State) : (∃ f, fetch s = .error f) ↔ 0xFFE < s.pc.toNat := by
  refine ⟨fun ⟨f, hf⟩ => Nat.lt_of_not_le fun hpc => ?_, fun hpc => ⟨_, fetch_error hpc⟩⟩
  cases (fetch_ok hpc).symm.trans hf

/-- No instruction's row of R108 is a fetch fault. -/
theorem kind_ne_fetchOutOfBounds_of_faultOf {ins : Instr} {s : State} {k : FaultKind} {a : Nat}
    (h : faultOf ins s = some (k, a)) : k ≠ .fetchOutOfBounds := by
  cases ins with
  | drw _ _ _ | ldB _ | storeRegs _ | loadRegs _ | call _ | ret | skp _ | sknp _ =>
    obtain ⟨-, ⟨⟩⟩ := Option.ite_none_right_eq_some.mp h
    nofun
  | _ => cases h

/-- An execute phase that ends with a fault only took it: PC is back at the instruction, whose encoding is recorded. -/
theorem exec_eq_of_fault {ins : Instr} {s t : State} {f : FaultRecord} (hs : s.fault = none)
    (h : exec ins s = .next t) (ht : t.fault = some f) :
    t = { s with pc := f.pc, fault := some f } ∧ f.pc = s.pc - 2 ∧ f.kind ≠ .fetchOutOfBounds ∧
      f.opcode = encode ins := by
  rcases exec_fault_or_effect h with ⟨k, a, hrow, rfl⟩ | ⟨-, he⟩
  · cases ht
    exact ⟨rfl, rfl, kind_ne_fetchOutOfBounds_of_faultOf hrow, rfl⟩
  · rw [he.frame.fault_eq, hs] at ht
    cases ht

/-- A tick that ends with a fault is the state before plus the record, made by the fetch or by the instruction. -/
theorem tick_eq_of_fault {s t : State} {f : FaultRecord} (hs : s.fault = none) (h : tick s = .next t)
    (ht : t.fault = some f) :
    t = { s with pc := f.pc, fault := some f } ∧ f.pc = s.pc ∧
      (f.kind = .fetchOutOfBounds ∧ f.opcode = 0 ∨ f.kind ≠ .fetchOutOfBounds ∧ f.opcode = s.wordAt s.pc.toNat) := by
  rcases tick_cases h with ⟨hne, -⟩ | ⟨-, -, rfl⟩ | ⟨-, -, -, rfl⟩ | ⟨-, -, ins, hd, he⟩
  · exact absurd hs hne
  · cases ht
    exact ⟨rfl, rfl, .inl ⟨rfl, rfl⟩⟩
  · cases hs.symm.trans ht
  · obtain ⟨hframe, hpc, hkind, hop⟩ := exec_eq_of_fault (s := s.setPc (s.pc + 2)) hs he ht
    obtain ⟨-, henc⟩ := isEncodingOf_of_decodeWord hd
    exact ⟨hframe, hpc.trans (BitVec.add_sub_cancel s.pc 2), .inr ⟨hkind, hop.trans henc⟩⟩

/-! ### A block of stores, from memory alone -/

/-- A block of stores leaves in memory what it leaves from any state with the same memory and font. -/
theorem State.writeBytes_eq_setMem {s t : State} (a : Nat) (bs : List Byte) (hmem : t.mem = s.mem)
    (hfont : t.font = s.font) : State.writeBytes a bs t = t.setMem (State.writeBytes a bs s).mem := by
  induction bs generalizing a s t with
  | nil => exact congrArg t.setMem hmem
  | cons b bs ih =>
    have hwrite : (t.writeByte a b).mem = (s.writeByte a b).mem := by
      simp only [State.writeByte, State.setMem_mem, hmem, hfont]
    exact ih (a + 1) hwrite hfont

/-! ### The commands and a recorded fault (R111) -/

/-- A STEP on a halted core does nothing. -/
theorem tick_halted {s : State} {f : FaultRecord} (hf : s.fault = some f) : tick s = .next s := by
  unfold tick
  rw [hf]

/-- LOAD neither reads nor writes the fault record. -/
theorem loadCommand_withFault (data : List Byte) (s : State) (o : Option FaultRecord) :
    loadCommand data { s with fault := o } = { loadCommand data s with fault := o } := by
  by_cases hfit : 0x200 + data.length ≤ 4096
  · rw [loadCommand_fits _ hfit, loadCommand_fits _ hfit,
      State.writeBytes_eq_setMem (s := s) (t := { s with fault := o }) 0x200 data rfl rfl,
      State.writeBytes_only_mem 0x200 data s]
    rfl
  · rw [loadCommand_overflow _ hfit, loadCommand_overflow _ hfit]
    rfl

/-- KEY with an index in range (R123). -/
theorem keyCommand_of_lt {k : Nat} (h : k < 16) (p : Bool) (s : State) : keyCommand k p s = s.setKey ⟨k, h⟩ p :=
  dif_pos h

/-- KEY with an index above 15 (R124). -/
theorem keyCommand_of_not_lt {k : Nat} (h : ¬ k < 16) (p : Bool) (s : State) :
    keyCommand k p s = s.setReply .keyRefused := dif_neg h

/-- KEY neither reads nor writes the fault record. -/
theorem keyCommand_withFault (k : Nat) (p : Bool) (s : State) (o : Option FaultRecord) :
    keyCommand k p { s with fault := o } = { keyCommand k p s with fault := o } := by
  by_cases hk : k < 16
  · rw [keyCommand_of_lt hk, keyCommand_of_lt hk]; rfl
  · rw [keyCommand_of_not_lt hk, keyCommand_of_not_lt hk]; rfl

/-- A command other than RESET and STEP does what it does with another fault record, or none, and keeps the record. -/
theorem runCommand_withFault {c : Command} (hreset : c ≠ .reset) (hstep : ∀ r, c ≠ .step r) (s : State) :
    ∃ t : State, ∀ o, runCommand c { s with fault := o } = .next { t with fault := o } := by
  cases c with
  | reset => exact absurd rfl hreset
  | step r => exact absurd rfl (hstep r)
  | load data => exact ⟨_, fun o => congrArg _ (loadCommand_withFault data s o)⟩
  | timerTick => exact ⟨timerTick s, fun _ => rfl⟩
  | key k p => exact ⟨_, fun o => congrArg _ (keyCommand_withFault k p s o)⟩

/-! ### TIMER_TICK (R117, R118) -/

/-- A timer counts down by one and stays at 0. -/
@[simp] theorem countDown_toNat (b : Byte) : (countDown b).toNat = b.toNat - 1 := by
  unfold countDown
  split <;> bv_omega

/-- ST after consecutive TIMER_TICKs. -/
theorem iterate_timerTick_st (k : Nat) (s : State) : (timerTick^[k] s).st.toNat = s.st.toNat - k := by
  induction k with
  | zero => rfl
  | succ k ih =>
    rw [Function.iterate_succ_apply']
    calc (timerTick (timerTick^[k] s)).st.toNat = (timerTick^[k] s).st.toNat - 1 := countDown_toNat _
      _ = s.st.toNat - (k + 1) := by rw [ih, Nat.sub_sub]

/-- The beep of the last of consecutive TIMER_TICKs is the 1-to-0 step of ST. -/
theorem iterate_timerTick_beepOut (k : Nat) (s : State) :
    (timerTick^[k + 1] s).beepOut = some (decide (s.st.toNat = k + 1)) := by
  rw [Function.iterate_succ_apply']
  have hone : (timerTick^[k] s).st.toNat = 1 ↔ s.st.toNat = k + 1 := by
    rw [iterate_timerTick_st]
    omega
  exact congrArg some (decide_eq_decide.mpr hone)

/-! ### The random byte is read by `CXNN` only (R121) -/

/-- The state with another random byte and another count of draws (log 2). -/
def State.setDraw (s : State) (r : Option Byte) (d : Nat) : State := { s with rnd := r, draws := d }

section Draw

variable {ins : Instr} {s t : State} (r : Option Byte) (d : Nat)

theorem State.writeBytes_setDraw (a : Nat) (bs : List Byte) (s : State) :
    State.writeBytes a bs (s.setDraw r d) = (State.writeBytes a bs s).setDraw r d := by
  rw [State.writeBytes_eq_setMem (s := s) (t := s.setDraw r d) a bs rfl rfl, State.writeBytes_only_mem a bs s]
  rfl

theorem State.skipIf_setDraw (c : Bool) : (s.setDraw r d).skipIf c = (s.skipIf c).setDraw r d := by
  cases c with
  | true => rfl
  | false => rfl

/-- The condition of a fault that is not taken fails. -/
theorem not_of_ite_some_eq_none {α : Type} {c : Prop} [Decidable c] {a : α}
    (h : (if c then some a else none) = none) : ¬ c := by
  simpa using h

/-- Where R108 lists no fault, every instruction but `CXNN` has the same effect whatever the random byte is. -/
theorem exec_setDraw_of_faultOf_eq_none (hins : ∀ x nn, ins ≠ .rnd x nn) (hrow : faultOf ins s = none)
    (h : exec ins s = .next t) : exec ins (s.setDraw r d) = .next (t.setDraw r d) := by
  cases ins with
  | rnd x nn => exact absurd rfl (hins x nn)
  | drw x y n =>
    have hfit : n = 0 ∨ s.i.toNat + n - 1 ≤ 0xFFF := by
      have := not_of_ite_some_eq_none hrow
      omega
    cases (exec_drw_ok x y hfit).symm.trans h
    exact exec_drw_ok (s := s.setDraw r d) x y hfit
  | ldB x =>
    have hfit := Nat.le_of_not_lt (not_of_ite_some_eq_none hrow)
    cases (exec_ldB_ok hfit).symm.trans h
    rw [← State.writeBytes_setDraw]
    exact exec_ldB_ok (s := s.setDraw r d) hfit
  | storeRegs x =>
    have hfit := Nat.le_of_not_lt (not_of_ite_some_eq_none hrow)
    cases (exec_storeRegs_ok hfit).symm.trans h
    rw [← State.writeBytes_setDraw]
    exact exec_storeRegs_ok (s := s.setDraw r d) hfit
  | loadRegs x =>
    have hfit := Nat.le_of_not_lt (not_of_ite_some_eq_none hrow)
    cases (exec_loadRegs_ok hfit).symm.trans h
    exact exec_loadRegs_ok (s := s.setDraw r d) hfit
  | call nnn =>
    have hsp : s.sp.val < 16 := by
      have := not_of_ite_some_eq_none hrow
      omega
    cases (exec_call_ok nnn hsp).symm.trans h
    exact exec_call_ok (s := s.setDraw r d) nnn hsp
  | ret =>
    have hsp := not_of_ite_some_eq_none hrow
    cases (exec_ret_ok hsp).symm.trans h
    exact exec_ret_ok (s := s.setDraw r d) hsp
  | skp x =>
    have hx := Nat.lt_of_not_le (not_of_ite_some_eq_none hrow)
    cases (exec_skp_ok (k := ⟨_, hx⟩) rfl).symm.trans h
    rw [← State.skipIf_setDraw]
    exact exec_skp_ok (s := s.setDraw r d) (k := ⟨_, hx⟩) rfl
  | sknp x =>
    have hx := Nat.lt_of_not_le (not_of_ite_some_eq_none hrow)
    cases (exec_sknp_ok (k := ⟨_, hx⟩) rfl).symm.trans h
    rw [← State.skipIf_setDraw]
    exact exec_sknp_ok (s := s.setDraw r d) (k := ⟨_, hx⟩) rfl
  | ldVxK x =>
    cases hk : s.firstKey with
    | some k =>
      cases (exec_ldVxK_pressed x hk).symm.trans h
      exact exec_ldVxK_pressed (s := s.setDraw r d) x hk
    | none =>
      cases (exec_ldVxK_none x hk).symm.trans h
      exact exec_ldVxK_none (s := s.setDraw r d) x hk
  | seImm x nn | sneImm x nn | seReg x y | sneReg x y =>
    cases h
    exact congrArg _ (State.skipIf_setDraw r d _)
  | _ =>
    cases h
    rfl

/-- Every instruction but `CXNN` faults alike and has the same effect whatever the random byte is. -/
theorem exec_setDraw (hins : ∀ x nn, ins ≠ .rnd x nn) (h : exec ins s = .next t) :
    exec ins (s.setDraw r d) = .next (t.setDraw r d) := by
  rcases exec_fault_or_effect h with ⟨k, a, hrow, rfl⟩ | ⟨hrow, -⟩
  · exact faults_of_faultOf (s := s.setDraw r d) hrow
  · exact exec_setDraw_of_faultOf_eq_none r d hins hrow h

end Draw

end Sys2Proof.Machine

namespace Sys2Proof.Claims

open Sys2Proof.Machine

/-! ### The obligations -/

/-- Settles O12: every execute phase answers a state, whose record is the row's (`exec_fault_eq`). -/
theorem faultsAreExactlyTheListedOnes : Obligations.FaultsAreExactlyTheListedOnes := by
  refine ⟨fun s ins hs => ?_, fun s => (exists_fetch_eq_error_iff s).trans Nat.succ_lt_succ_iff.symm⟩
  obtain ⟨t, ht⟩ := exec_answers ins s
  exact ⟨t, ht, exec_fault_eq hs ht⟩

/-- Settles O13: the fault is the fetch's, with opcode 0, or the instruction's, with its word (`tick_eq_of_fault`). -/
theorem faultsArePrecise : Obligations.FaultsArePrecise := by
  intro s t f hs h ht
  obtain ⟨hframe, hpc, ⟨hkind, hop⟩ | ⟨hkind, hop⟩⟩ := tick_eq_of_fault hs h ht
  · exact ⟨hframe, hpc, fun _ => hop, absurd hkind⟩
  · exact ⟨hframe, hpc, fun hk => absurd hk hkind, fun _ => hop⟩

/-- Settles O20: ST counts down with the ticks, so only the tick that finds it at 1 beeps. -/
theorem beepIsAOneShot : Obligations.BeepIsAOneShot :=
  fun s k => ⟨iterate_timerTick_beepOut k s, iterate_timerTick_st (k + 1) s⟩

/-- Settles O51: `exec_setDraw`. -/
theorem randomByteReachesOnlyRnd : Obligations.RandomByteReachesOnlyRnd :=
  fun _ _ _ r d hins h => exec_setDraw r d hins h

/-- Settles O6: the command taken is a STEP, and the tick from the state without it executes the word at PC
(`tick_recognised`). -/
theorem stepRunsTheDecodedInstruction : Obligations.StepRunsTheDecodedInstruction := by
  intro s ins hf hpc hd
  refine ⟨fun hinbox => ?_, fun r rest hinbox => ?_⟩
  · unfold step nextCommand
    rw [hinbox]
    exact tick_recognised (s := s.take [] none) hf hpc hd
  · exact (stepRunsTheHostsNextCommand s _ rest hinbox).trans (tick_recognised (s := s.take rest (some r)) hf hpc hd)

/-- Settles O10: a STEP does nothing (`tick_halted`), RESET clears the record, and the other commands pass it on unread
(`runCommand_withFault`). -/
theorem recordedFaultHaltsTheCore : Obligations.RecordedFaultHaltsTheCore := by
  intro s f hf
  have hother : ∀ c : Command, c ≠ .reset → (∀ r, c ≠ .step r) →
      ∃ t, runCommand c { s with fault := none } = .next t ∧ runCommand c s = .next { t with fault := some f } := by
    intro c hreset hstep
    obtain ⟨t, ht⟩ := runCommand_withFault hreset hstep s
    have hs : { s with fault := some f } = s := by rw [← hf]
    exact ⟨_, ht none, hs ▸ ht (some f)⟩
  refine ⟨tick_halted hf, fun _ => tick_halted hf, hother, fun c t hreset h => ?_, _, rfl, rfl⟩
  by_cases hstep : ∃ r, c = .step r
  · obtain ⟨r, rfl⟩ := hstep
    cases (tick_halted hf).symm.trans h
    exact hf
  · obtain ⟨u, -, hu⟩ := hother c hreset (not_exists.mp hstep)
    cases hu.symm.trans h
    rfl

/-- Settles O19: both timers are counted down (`countDown_toNat`), the beep is read off ST before. -/
theorem timerTickCountsBothTimersDown : Obligations.TimerTickCountsBothTimersDown :=
  fun s => ⟨timerTick s, rfl, countDown_toNat s.dt, countDown_toNat s.st, rfl, rfl, fun _ => rfl⟩

/-- Settles O21: KEY in range is one write to the key array (`keyCommand_of_lt`). -/
theorem keyCommandSetsOneKey : Obligations.KeyCommandSetsOneKey := by
  refine fun s k p => ⟨s.setKey k p, congrArg Host.Outcome.next (keyCommand_of_lt k.isLt p s), ?_, fun j hj => ?_,
    rfl, fun _ => rfl⟩
  · exact Vector.getElem_set_self k.isLt
  · exact Vector.getElem_set_ne k.isLt j.isLt fun h => hj (Fin.ext h.symm)

/-- Settles O22: above 15 only the reply is set (`keyCommand_of_not_lt`). -/
theorem keyOutOfRangeIsRefused : Obligations.KeyOutOfRangeIsRefused :=
  fun s _ p hk => congrArg _ (keyCommand_of_not_lt (Nat.not_lt.mpr hk) p s)

end Sys2Proof.Claims
end

section
/-!
PROOFS of the family 70_reset_and_hazards.md. Every tick and every command answers a next state (R144, R107); the word of a
jump to itself and its tick (R144 (b)); what memory reads after a reset and the components of the state RESET leaves
(R131, R31). The obligations follow from these.
-/

namespace Sys2Proof.Machine

open Sys2Proof.Claims

/-! ### Every step answers a next state -/

/-- A tick answers a next state: the core is halted, or the fetch faults, or the word is passed over or executed. -/
theorem tick_answers (s : State) : ∃ t, tick s = .next t := by
  cases hf : s.fault with
  | some f => exact ⟨_, tick_halted hf⟩
  | none =>
    by_cases hpc : s.pc.toNat ≤ 0xFFE
    · cases hd : decodeWord (s.wordAt s.pc.toNat) with
      | none => exact ⟨_, tick_unrecognised hf hpc hd⟩
      | some ins =>
        rw [tick_recognised hf hpc hd]
        exact exec_answers ins _
    · exact ⟨_, tick_fetch_error hf (Nat.lt_of_not_le hpc)⟩

/-- A command of the host answers a next state. -/
theorem runCommand_answers (c : Command) (s : State) : ∃ t, runCommand c s = .next t := by
  cases c with
  | step r => exact tick_answers s
  | reset | load _ | timerTick | key _ _ => exact ⟨_, rfl⟩

/-! ### A jump to itself (R144 (b)) -/

/-- The word of a parked machine is the encoding of the jump to its PC, which fits 12 bits. -/
theorem State.Parked.wordAt_eq_encode_jp {s : State} (h : s.Parked) :
    s.wordAt s.pc.toNat = encode (.jp (s.pc.setWidth 12)) := by
  obtain ⟨-, hpc, hword⟩ := h
  apply BitVec.eq_of_toNat_eq
  rw [hword, encode, encodeNNN_toNat (by decide), BitVec.toNat_setWidth]
  omega

/-- A PC that fits 12 bits is the target of the jump to it. -/
theorem zextAddr_setWidth_of_le {a : Word} (h : a.toNat ≤ 0xFFE) : zextAddr (a.setWidth 12) = a := by
  apply BitVec.eq_of_toNat_eq
  rw [zextAddr_toNat, BitVec.toNat_setWidth]
  omega

/-! ### The state RESET leaves (R131) -/

/-- With no entry listed, memory reads FONT_TABLE below 0x050 (R34). -/
theorem State.readByte_of_lt_eighty {s : State} (h : s.mem = []) {a : Nat} (ha : a < 80) :
    s.readByte a = s.font[a] := by
  rw [State.readByte, h]
  exact dif_pos ha

/-- With no entry listed, memory reads 0 from 0x050 on (R35). -/
theorem State.readByte_of_eighty_le {s : State} (h : s.mem = []) {a : Nat} (ha : 80 ≤ a) : s.readByte a = 0 := by
  rw [State.readByte, h]
  exact dif_neg (Nat.not_lt.mpr ha)

/-- RESET gives every component its reset value, for the font table it finds. -/
theorem atReset_resetCommand (s : State) : AtReset s.font (resetCommand s) where
  fontBytes _ ha := State.readByte_of_lt_eighty rfl ha
  otherBytes _ ha _ := State.readByte_of_eighty_le rfl ha
  v x := Vector.getElem_replicate x.isLt
  pc := rfl
  i := rfl
  stack k := Vector.getElem_replicate k.isLt
  sp := rfl
  dt := rfl
  st := rfl
  disp := Screen.pixel_clear
  key k := Vector.getElem_replicate k.isLt
  fault := rfl

/-- RESET finds the state at construction as it leaves it (R134). -/
theorem resetCommand_reset : resetCommand State.reset = State.reset := rfl

end Sys2Proof.Machine

/-! ### The obligations -/

namespace Sys2Proof.Claims

open Sys2Proof.Machine

/-- Settles O11: a step is a tick when the host lists no command (`tick_answers`), and else runs the command it takes
(`runCommand_answers`). -/
theorem everyStepAnswersANextState : Obligations.EveryStepAnswersANextState := by
  intro s
  cases hinbox : s.inbox with
  | nil =>
    unfold step nextCommand
    rw [hinbox]
    exact tick_answers _
  | cons c rest =>
    rw [stepRunsTheHostsNextCommand s c rest hinbox]
    exact runCommand_answers c _

/-- Settles O53: the word at PC decodes to the jump to PC (`State.Parked.wordAt_eq_encode_jp`), which undoes the fetch's
advance of PC. -/
theorem parkedMachineStays : Obligations.ParkedMachineStays := by
  intro s h
  have hd : decodeWord (s.wordAt s.pc.toNat) = some (.jp (s.pc.setWidth 12)) := by
    rw [State.Parked.wordAt_eq_encode_jp h]
    exact decodeWord_encode rfl
  obtain ⟨hf, hpc, -⟩ := h
  calc tick s = exec (.jp (s.pc.setWidth 12)) (s.setPc (s.pc + 2)) := tick_recognised hf hpc hd
    _ = .next (s.setPc (zextAddr (s.pc.setWidth 12))) := rfl
    _ = .next s := by rw [zextAddr_setWidth_of_le hpc]; rfl

/-- Settles O18: `atReset_resetCommand`, at construction with the state that RESET leaves as it is. -/
theorem resetRestoresEveryComponent : Obligations.ResetRestoresEveryComponent :=
  ⟨resetCommand_reset ▸ atReset_resetCommand State.reset, fun s => ⟨_, rfl, atReset_resetCommand s⟩⟩

end Sys2Proof.Claims
end
